-- ==== Sys2Proof/Word.lean ====
section
/-! DEFINITION. The value types and the operand names of the instruction set: bytes, words, and the closed sets of
registers, pairs and conditions that the fields of an opcode select (30_encoding.md R103 to R110). -/

namespace Sys2Proof

/-- A `u8`: an 8-bit register or a memory byte (00_scope.md R8, R10). -/
abbrev Byte := BitVec 8

/-- A `u16`: an address, `SP`, `PC` or a register pair's value (00_scope.md R8, R10). -/
abbrev Word := BitVec 16

/-- The 8-bit registers a 3-bit field selects (30_encoding.md R103); code `110` is a memory operand, not a register. -/
inductive Reg8 where
  | b | c | d | e | h | l | a
  deriving DecidableEq, Repr

/-- The registers of the index-half copy `LD ρ,ρ'` (30_encoding.md R109): `H` and `L` cannot be named there. -/
inductive Rho where
  | b | c | d | e | xh | xl | a
  deriving DecidableEq, Repr

/-- The `dd` / `ss` table of 30_encoding.md R104. -/
inductive RegPair where
  | bc | de | hl | sp
  deriving DecidableEq, Repr

/-- The `qq` table of 30_encoding.md R104 (`PUSH`, `POP`). -/
inductive StackPair where
  | bc | de | hl | af
  deriving DecidableEq, Repr

/-- The `ppx` table of 30_encoding.md R104 (`ADD XY,pp`). -/
inductive IndexAddPair where
  | bc | de | xy | sp
  deriving DecidableEq, Repr

/-- The pair that holds the address of `LD A,(BC)`, `LD A,(DE)` and their stores (field `q`, 30_encoding.md R102). -/
inductive PtrPair where
  | bc | de
  deriving DecidableEq, Repr

/-- The index register a prefix selects (30_encoding.md R106). -/
inductive IndexReg where
  | ix | iy
  deriving DecidableEq, Repr

/-- The half of an index register that field `u` selects (30_encoding.md R102, R109). -/
inductive IndexHalf where
  | high | low
  deriving DecidableEq, Repr

/-- The eight conditions of `ccc` (30_encoding.md R105). -/
inductive Cond where
  | nz | z | nc | c | po | pe | p | m
  deriving DecidableEq, Repr

/-- The four conditions of `cc` (30_encoding.md R105, `JR cc`). -/
inductive RelCond where
  | nz | z | nc | c
  deriving DecidableEq, Repr

/-- The eight CB rotates and shifts (30_encoding.md R112, 41_alu_flags.md R193). -/
inductive RotOp where
  | rlc | rrc | rl | rr | sla | sra | sll | srl
  deriving DecidableEq, Repr

/-- The three logical operations (41_alu_flags.md R192). -/
inductive LogicOp where
  | and | xor | or
  deriving DecidableEq, Repr

end Sys2Proof
end

