-- ==== Sys2Proof/Machine/Bits.lean ====
section
/-! DEFINITION. The bit-field, byte-order, sign-extension and two's-complement helpers of 00_scope.md R10 to R13. -/

namespace Sys2Proof.Machine

/-- `h:l` (00_scope.md R11). -/
def join (h l : Byte) : Word := BitVec.ofNat 16 (h.toNat * 256 + l.toNat)

/-- `hi(v) = v[15:8]` (00_scope.md R11). -/
def hi (v : Word) : Byte := BitVec.ofNat 8 (v.toNat / 256)

/-- `lo(v) = v[7:0]` (00_scope.md R11). -/
def lo (v : Word) : Byte := BitVec.ofNat 8 v.toNat

/-- `s8(v)` (00_scope.md R12). -/
def s8 (v : Byte) : Int := if v.toNat < 128 then v.toNat else (v.toNat : Int) - 256

/-- `s16(v)` (00_scope.md R12). -/
def s16 (v : Word) : Int := if v.toNat < 32768 then v.toNat else (v.toNat : Int) - 65536

/-- `(base + s8(d)) mod 2^16`, the sum of 20_memory.md R81 and 30_encoding.md R108. -/
def addDisp (base : Word) (d : Byte) : Word := BitVec.ofInt 16 ((base.toNat : Int) + s8 d)

/-- `v[hi:lo]` of a byte, `n` bits wide from bit `lo` (00_scope.md R10). -/
def field (v : Byte) (lo n : Nat) : Nat := v.toNat / 2 ^ lo % 2 ^ n

/-- `v[k]` (00_scope.md R10). -/
def bitOf (v : Byte) (k : Nat) : Bool := v.getLsbD k

/-- `p ? mask : 0`, a flag bit of `F` (00_scope.md R13). -/
def flagIf (p : Bool) (mask : Byte) : Byte := if p then mask else 0

/-- `Bit(b) = 1 << b` as a byte (40_ir_fold.md R143). -/
def bitMask (b : Fin 8) : Byte := BitVec.ofNat 8 (2 ^ b.val)

/-- `x & y` on two's-complement integers (00_scope.md R13, 40_ir_fold.md R146). -/
def intAnd : Int → Int → Int
  | .ofNat m, .ofNat n => .ofNat (m &&& n)
  | .ofNat m, .negSucc n => .ofNat (m ^^^ (m &&& n))
  | .negSucc m, .ofNat n => .ofNat (n ^^^ (n &&& m))
  | .negSucc m, .negSucc n => .negSucc (m ||| n)

/-- `~x = -x - 1` (40_ir_fold.md R146). -/
def intNot (x : Int) : Int := -x - 1

/-- `x | y` on two's-complement integers, by de Morgan from `&` (00_scope.md R13). -/
def intOr (x y : Int) : Int := intNot (intAnd (intNot x) (intNot y))

/-- `x ^ y` on two's-complement integers (00_scope.md R13). -/
def intXor : Int → Int → Int
  | .ofNat m, .ofNat n => .ofNat (m ^^^ n)
  | .ofNat m, .negSucc n => .negSucc (m ^^^ n)
  | .negSucc m, .ofNat n => .negSucc (m ^^^ n)
  | .negSucc m, .negSucc n => .ofNat (m ^^^ n)

/-- `x << k = x * 2^k` (00_scope.md R13). -/
def intShl (x : Int) (k : Nat) : Int := x * (2 ^ k : Nat)

/-- `x >> k = floor(x / 2^k)`, the arithmetic shift (00_scope.md R13). -/
def intShr (x : Int) (k : Nat) : Int := x.fdiv (2 ^ k : Nat)

end Sys2Proof.Machine
end

