-- ==== Sys2Proof/Syntax.lean ====
section
/-! DEFINITION. The instruction set: one constructor for each of the 157 rows of spec/opcode_table.json, in the table's
order (30_encoding.md R119). `d` beside an `IndexReg` is the displacement byte, `e` the relative offset byte, `n` an 8-bit and
`nn` a 16-bit immediate (R107); `b` is a bit number (R102). -/

namespace Sys2Proof

/-- An admitted instruction with its decoded fields. -/
inductive Instr where
  /-- `NOP` (R431). -/
  | nop
  /-- `LD r,r'` (R221). -/
  | ldRR (dst : Reg8) (src : Reg8)
  /-- `LD r,n` (R223). -/
  | ldRN (dst : Reg8) (n : Byte)
  /-- `LD r,(HL)` (R224). -/
  | ldRHl (dst : Reg8)
  /-- `LD (HL),r` (R225). -/
  | ldHlR (r : Reg8)
  /-- `LD (HL),n` (R226). -/
  | ldHlN (n : Byte)
  /-- `LD A,(BC)`, `LD A,(DE)` (R230). -/
  | ldAPtr (q : PtrPair)
  /-- `LD A,(nn)` (R231). -/
  | ldAAbs (nn : Word)
  /-- `LD (BC),A`, `LD (DE),A` (R236). -/
  | ldPtrA (q : PtrPair)
  /-- `LD (nn),A` (R237). -/
  | ldAbsA (nn : Word)
  /-- `LD dd,nn` (R241). -/
  | ldDdNn (p : RegPair) (nn : Word)
  /-- `LD HL,(nn)` (R243). -/
  | ldHlAbs (nn : Word)
  /-- `LD (nn),HL` (R246). -/
  | ldAbsHl (nn : Word)
  /-- `LD SP,HL` (R249). -/
  | ldSpHl
  /-- `PUSH qq` (R410). -/
  | pushQq (p : StackPair)
  /-- `POP qq` (R412). -/
  | popQq (p : StackPair)
  /-- `EX DE,HL` (R416). -/
  | exDeHl
  /-- `EX AF,AF'` (R414). -/
  | exAfAf
  /-- `EXX` (R415). -/
  | exx
  /-- `EX (SP),HL` (R417). -/
  | exSpHl
  /-- `ADD A,r` (R271). -/
  | addR (r : Reg8)
  /-- `ADD A,n` (R271). -/
  | addN (n : Byte)
  /-- `ADD A,(HL)` (R271). -/
  | addHl
  /-- `ADC A,r` (R272). -/
  | adcR (r : Reg8)
  /-- `ADC A,n` (R272). -/
  | adcN (n : Byte)
  /-- `ADC A,(HL)` (R272). -/
  | adcHl
  /-- `SUB r` (R273). -/
  | subR (r : Reg8)
  /-- `SUB n` (R273). -/
  | subN (n : Byte)
  /-- `SUB (HL)` (R273). -/
  | subHl
  /-- `SBC A,r` (R274). -/
  | sbcR (r : Reg8)
  /-- `SBC A,n` (R274). -/
  | sbcN (n : Byte)
  /-- `SBC A,(HL)` (R274). -/
  | sbcHl
  /-- `AND r` (R301). -/
  | andR (r : Reg8)
  /-- `AND n` (R301). -/
  | andN (n : Byte)
  /-- `AND (HL)` (R301). -/
  | andHl
  /-- `XOR r` (R302). -/
  | xorR (r : Reg8)
  /-- `XOR n` (R302). -/
  | xorN (n : Byte)
  /-- `XOR (HL)` (R302). -/
  | xorHl
  /-- `OR r` (R303). -/
  | orR (r : Reg8)
  /-- `OR n` (R303). -/
  | orN (n : Byte)
  /-- `OR (HL)` (R303). -/
  | orHl
  /-- `CP r` (R275). -/
  | cpR (r : Reg8)
  /-- `CP n` (R275). -/
  | cpN (n : Byte)
  /-- `CP (HL)` (R275). -/
  | cpHl
  /-- `INC r` (R276). -/
  | incR (r : Reg8)
  /-- `INC (HL)` (R276). -/
  | incHl
  /-- `DEC r` (R277). -/
  | decR (r : Reg8)
  /-- `DEC (HL)` (R277). -/
  | decHl
  /-- `ADD HL,ss` (R315). -/
  | addHlSs (p : RegPair)
  /-- `INC ss` (R320). -/
  | incSs (p : RegPair)
  /-- `DEC ss` (R322). -/
  | decSs (p : RegPair)
  /-- `RLCA` (R341). -/
  | rlca
  /-- `RRCA` (R342). -/
  | rrca
  /-- `RLA` (R343). -/
  | rla
  /-- `RRA` (R344). -/
  | rra
  /-- `DAA` (R427). -/
  | daa
  /-- `CPL` (R428). -/
  | cpl
  /-- `SCF` (R429). -/
  | scf
  /-- `CCF` (R430). -/
  | ccf
  /-- `HALT` (R434). -/
  | halt
  /-- `JP nn` (R388). -/
  | jpNn (nn : Word)
  /-- `JP cc,nn` (R389). -/
  | jpCc (cc : Cond) (nn : Word)
  /-- `JP (HL)` (R390). -/
  | jpHl
  /-- `JR e` (R392). -/
  | jrE (e : Byte)
  /-- `JR cc,e` (R393). -/
  | jrCc (cc : RelCond) (e : Byte)
  /-- `DJNZ e` (R394). -/
  | djnz (e : Byte)
  /-- `CALL nn` (R395). -/
  | callNn (nn : Word)
  /-- `CALL cc,nn` (R396). -/
  | callCc (cc : Cond) (nn : Word)
  /-- `RET` (R397). -/
  | ret
  /-- `RET cc` (R398). -/
  | retCc (cc : Cond)
  /-- `RST p`, the target being `8 * t` (R399). -/
  | rst (t : Fin 8)
  /-- `RLC r` (R345). -/
  | rlcR (r : Reg8)
  /-- `RLC (HL)` (R345). -/
  | rlcHl
  /-- `RRC r` (R346). -/
  | rrcR (r : Reg8)
  /-- `RRC (HL)` (R346). -/
  | rrcHl
  /-- `RL r` (R347). -/
  | rlR (r : Reg8)
  /-- `RL (HL)` (R347). -/
  | rlHl
  /-- `RR r` (R348). -/
  | rrR (r : Reg8)
  /-- `RR (HL)` (R348). -/
  | rrHl
  /-- `SLA r` (R349). -/
  | slaR (r : Reg8)
  /-- `SLA (HL)` (R349). -/
  | slaHl
  /-- `SRA r` (R350). -/
  | sraR (r : Reg8)
  /-- `SRA (HL)` (R350). -/
  | sraHl
  /-- `SLL r` (R351). -/
  | sllR (r : Reg8)
  /-- `SLL (HL)` (R351). -/
  | sllHl
  /-- `SRL r` (R352). -/
  | srlR (r : Reg8)
  /-- `SRL (HL)` (R352). -/
  | srlHl
  /-- `BIT b,r` (R366). -/
  | bitR (b : Fin 8) (r : Reg8)
  /-- `BIT b,(HL)` (R366). -/
  | bitHl (b : Fin 8)
  /-- `RES b,r` (R367). -/
  | resR (b : Fin 8) (r : Reg8)
  /-- `RES b,(HL)` (R367). -/
  | resHl (b : Fin 8)
  /-- `SET b,r` (R368). -/
  | setR (b : Fin 8) (r : Reg8)
  /-- `SET b,(HL)` (R368). -/
  | setHl (b : Fin 8)
  /-- `LD dd,(nn)`, the `ED` form (R244). -/
  | ldDdAbs (p : RegPair) (nn : Word)
  /-- `LD (nn),dd`, the `ED` form (R247). -/
  | ldAbsDd (p : RegPair) (nn : Word)
  /-- `ADC HL,ss` (R318). -/
  | adcHlSs (p : RegPair)
  /-- `SBC HL,ss` (R319). -/
  | sbcHlSs (p : RegPair)
  /-- `NEG` (R426). -/
  | neg
  /-- `LD I,A` (R232). -/
  | ldIA
  /-- `LD R,A`, `R` the refresh register (R235). -/
  | ldRefreshA
  /-- `LD A,I` (R233). -/
  | ldAI
  /-- `LD A,R`, `R` the refresh register (R234). -/
  | ldARefresh
  /-- `LD XY,nn` (R242). -/
  | ldXyNn (x : IndexReg) (nn : Word)
  /-- `LD XY,(nn)` (R245). -/
  | ldXyAbs (x : IndexReg) (nn : Word)
  /-- `LD (nn),XY` (R248). -/
  | ldAbsXy (x : IndexReg) (nn : Word)
  /-- `LD SP,XY` (R250). -/
  | ldSpXy (x : IndexReg)
  /-- `PUSH XY` (R411). -/
  | pushXy (x : IndexReg)
  /-- `POP XY` (R413). -/
  | popXy (x : IndexReg)
  /-- `EX (SP),XY` (R418). -/
  | exSpXy (x : IndexReg)
  /-- `INC XY` (R321). -/
  | incXy (x : IndexReg)
  /-- `DEC XY` (R323). -/
  | decXy (x : IndexReg)
  /-- `ADD XY,pp` (R316). -/
  | addXyPp (x : IndexReg) (p : IndexAddPair)
  /-- `JP (XY)` (R391). -/
  | jpXy (x : IndexReg)
  /-- `LD r,(XY+d)` (R227). -/
  | ldRXd (r : Reg8) (x : IndexReg) (d : Byte)
  /-- `LD (XY+d),r` (R228). -/
  | ldXdR (x : IndexReg) (d : Byte) (r : Reg8)
  /-- `LD (XY+d),n` (R229). -/
  | ldXdN (x : IndexReg) (d : Byte) (n : Byte)
  /-- `ADD A,(XY+d)` (R271). -/
  | addXd (x : IndexReg) (d : Byte)
  /-- `ADD A,XYH`, `ADD A,XYL` (R271). -/
  | addXh (x : IndexReg) (u : IndexHalf)
  /-- `ADC A,(XY+d)` (R272). -/
  | adcXd (x : IndexReg) (d : Byte)
  /-- `ADC A,XYH`, `ADC A,XYL` (R272). -/
  | adcXh (x : IndexReg) (u : IndexHalf)
  /-- `SUB (XY+d)` (R273). -/
  | subXd (x : IndexReg) (d : Byte)
  /-- `SUB XYH`, `SUB XYL` (R273). -/
  | subXh (x : IndexReg) (u : IndexHalf)
  /-- `SBC A,(XY+d)` (R274). -/
  | sbcXd (x : IndexReg) (d : Byte)
  /-- `SBC A,XYH`, `SBC A,XYL` (R274). -/
  | sbcXh (x : IndexReg) (u : IndexHalf)
  /-- `AND (XY+d)` (R301). -/
  | andXd (x : IndexReg) (d : Byte)
  /-- `AND XYH`, `AND XYL` (R301). -/
  | andXh (x : IndexReg) (u : IndexHalf)
  /-- `XOR (XY+d)` (R302). -/
  | xorXd (x : IndexReg) (d : Byte)
  /-- `XOR XYH`, `XOR XYL` (R302). -/
  | xorXh (x : IndexReg) (u : IndexHalf)
  /-- `OR (XY+d)` (R303). -/
  | orXd (x : IndexReg) (d : Byte)
  /-- `OR XYH`, `OR XYL` (R303). -/
  | orXh (x : IndexReg) (u : IndexHalf)
  /-- `CP (XY+d)` (R275). -/
  | cpXd (x : IndexReg) (d : Byte)
  /-- `CP XYH`, `CP XYL` (R275). -/
  | cpXh (x : IndexReg) (u : IndexHalf)
  /-- `INC (XY+d)` (R276). -/
  | incXd (x : IndexReg) (d : Byte)
  /-- `DEC (XY+d)` (R277). -/
  | decXd (x : IndexReg) (d : Byte)
  /-- `LD ρ,ρ'`, the copy that involves an index half (the table's row `LD`) (R239). -/
  | ldRho (x : IndexReg) (t : Rho) (s : Rho)
  /-- `LD XYH,n`, `LD XYL,n` (R240). -/
  | ldXhN (x : IndexReg) (u : IndexHalf) (n : Byte)
  /-- `INC XYH`, `INC XYL` (R276). -/
  | incXh (x : IndexReg) (u : IndexHalf)
  /-- `DEC XYH`, `DEC XYL` (R277). -/
  | decXh (x : IndexReg) (u : IndexHalf)
  /-- `RLC (XY+d)` (R345). -/
  | rlcXd (x : IndexReg) (d : Byte)
  /-- `RLC (XY+d),r` (R345). -/
  | rlcXdR (x : IndexReg) (d : Byte) (r : Reg8)
  /-- `RRC (XY+d)` (R346). -/
  | rrcXd (x : IndexReg) (d : Byte)
  /-- `RRC (XY+d),r` (R346). -/
  | rrcXdR (x : IndexReg) (d : Byte) (r : Reg8)
  /-- `RL (XY+d)` (R347). -/
  | rlXd (x : IndexReg) (d : Byte)
  /-- `RL (XY+d),r` (R347). -/
  | rlXdR (x : IndexReg) (d : Byte) (r : Reg8)
  /-- `RR (XY+d)` (R348). -/
  | rrXd (x : IndexReg) (d : Byte)
  /-- `RR (XY+d),r` (R348). -/
  | rrXdR (x : IndexReg) (d : Byte) (r : Reg8)
  /-- `SLA (XY+d)` (R349). -/
  | slaXd (x : IndexReg) (d : Byte)
  /-- `SLA (XY+d),r` (R349). -/
  | slaXdR (x : IndexReg) (d : Byte) (r : Reg8)
  /-- `SRA (XY+d)` (R350). -/
  | sraXd (x : IndexReg) (d : Byte)
  /-- `SRA (XY+d),r` (R350). -/
  | sraXdR (x : IndexReg) (d : Byte) (r : Reg8)
  /-- `SLL (XY+d)` (R351). -/
  | sllXd (x : IndexReg) (d : Byte)
  /-- `SLL (XY+d),r` (R351). -/
  | sllXdR (x : IndexReg) (d : Byte) (r : Reg8)
  /-- `SRL (XY+d)` (R352). -/
  | srlXd (x : IndexReg) (d : Byte)
  /-- `SRL (XY+d),r` (R352). -/
  | srlXdR (x : IndexReg) (d : Byte) (r : Reg8)
  /-- `BIT b,(XY+d)` (R366). -/
  | bitXd (b : Fin 8) (x : IndexReg) (d : Byte)
  /-- `RES b,(XY+d)` (R367). -/
  | resXd (b : Fin 8) (x : IndexReg) (d : Byte)
  /-- `SET b,(XY+d)` (R368). -/
  | setXd (b : Fin 8) (x : IndexReg) (d : Byte)
  deriving DecidableEq, Repr

end Sys2Proof
end

