-- ==== Sys2Proof/WellFormed.lean ====
section
/-! DEFINITION. Which instruction terms an encoding can produce. Every field constraint of opcode_table.json but one is carried
by the operand types (a `Reg8` has no code `110`, a bit number is a `Fin 8`); the one left is the constraint of row `LD`. -/

namespace Sys2Proof

/-- The code names an index half (30_encoding.md R109: codes `100` and `101`). -/
def Rho.isHalf : Rho → Bool
  | .xh | .xl => true
  | .b | .c | .d | .e | .a => false

/-- An instruction that some byte sequence decodes to: `LD ρ,ρ'` has at least one index half among its operands
(30_encoding.md R110, the constraint `rrr in {100,101} or sss in {100,101}`). -/
def Instr.wellFormed : Instr → Bool
  | .ldRho _ t s => t.isHalf || s.isHalf
  | _ => true

end Sys2Proof
end

