-- ==== Sys2Proof/Decode.lean ====
section
/-! DEFINITION. The decoder and, after it, the encoder (30_encoding.md). The decoder takes the four bytes at the fetch address:
an instruction is 1 to 4 bytes (R100), and a byte past the instruction changes nothing (R120). The opcode table of
spec/opcode_table.json stands last, as data, for the claims that the decoder agrees with it. -/

namespace Sys2Proof

open Sys2Proof.Machine (join hi lo field)

/-! ## Field tables -/

/-- `reg8[f]` (R103); `none` is code `110`, the memory operand. -/
def reg8OfCode : Nat → Option Reg8
  | 0 => some .b
  | 1 => some .c
  | 2 => some .d
  | 3 => some .e
  | 4 => some .h
  | 5 => some .l
  | 6 => none
  | _ => some .a

/-- `ρ(f)` (R109); `none` is code `110`, which row `LD` excludes (R110). -/
def rhoOfCode : Nat → Option Rho
  | 0 => some .b
  | 1 => some .c
  | 2 => some .d
  | 3 => some .e
  | 4 => some .xh
  | 5 => some .xl
  | 6 => none
  | _ => some .a

/-- The `dd` / `ss` table (R104). -/
def regPairOfCode : Nat → RegPair
  | 0 => .bc
  | 1 => .de
  | 2 => .hl
  | _ => .sp

/-- The `qq` table (R104). -/
def stackPairOfCode : Nat → StackPair
  | 0 => .bc
  | 1 => .de
  | 2 => .hl
  | _ => .af

/-- The `ppx` table (R104). -/
def indexAddPairOfCode : Nat → IndexAddPair
  | 0 => .bc
  | 1 => .de
  | 2 => .xy
  | _ => .sp

/-- Field `q` (R102). -/
def ptrPairOfCode : Nat → PtrPair
  | 0 => .bc
  | _ => .de

/-- Field `u` (R102). -/
def halfOfCode : Nat → IndexHalf
  | 0 => .high
  | _ => .low

/-- Field `ccc` (R105). -/
def condOfCode : Nat → Cond
  | 0 => .nz
  | 1 => .z
  | 2 => .nc
  | 3 => .c
  | 4 => .po
  | 5 => .pe
  | 6 => .p
  | _ => .m

/-- Field `cc` (R105). -/
def relCondOfCode : Nat → RelCond
  | 0 => .nz
  | 1 => .z
  | 2 => .nc
  | _ => .c

/-- A 3-bit field as a bit number or a restart number (R102). -/
def fin8OfCode (n : Nat) : Fin 8 := ⟨n % 8, Nat.mod_lt _ (by decide)⟩

/-- `op[7:6]`, the quadrant (R112, R122). -/
def quadrantOf (op : Byte) : Nat := field op 6 2

/-- `op[5:3]` (R102). -/
def yOf (op : Byte) : Nat := field op 3 3

/-- `op[2:0]` (R102). -/
def zOf (op : Byte) : Nat := field op 0 3

/-- `op[5:4]`, field `pp` (R102). -/
def ppOf (op : Byte) : Nat := field op 4 2

/-- `op[3]`, which parts the rows that share `pp` and `z`. -/
def bit3Of (op : Byte) : Nat := field op 3 1

/-! ## Operation fields -/

/-- The register form of the accumulator operation `ooo` (43_arith8.md R270). -/
def aluReg (ooo : Nat) (r : Reg8) : Instr :=
  match ooo with
  | 0 => .addR r
  | 1 => .adcR r
  | 2 => .subR r
  | 3 => .sbcR r
  | 4 => .andR r
  | 5 => .xorR r
  | 6 => .orR r
  | _ => .cpR r

/-- The immediate form of the accumulator operation `ooo` (R270). -/
def aluImm (ooo : Nat) (n : Byte) : Instr :=
  match ooo with
  | 0 => .addN n
  | 1 => .adcN n
  | 2 => .subN n
  | 3 => .sbcN n
  | 4 => .andN n
  | 5 => .xorN n
  | 6 => .orN n
  | _ => .cpN n

/-- The `(HL)` form of the accumulator operation `ooo` (R270). -/
def aluMem (ooo : Nat) : Instr :=
  match ooo with
  | 0 => .addHl
  | 1 => .adcHl
  | 2 => .subHl
  | 3 => .sbcHl
  | 4 => .andHl
  | 5 => .xorHl
  | 6 => .orHl
  | _ => .cpHl

/-- The `(XY+d)` form of the accumulator operation `ooo` (R270). -/
def aluIdx (ooo : Nat) (x : IndexReg) (d : Byte) : Instr :=
  match ooo with
  | 0 => .addXd x d
  | 1 => .adcXd x d
  | 2 => .subXd x d
  | 3 => .sbcXd x d
  | 4 => .andXd x d
  | 5 => .xorXd x d
  | 6 => .orXd x d
  | _ => .cpXd x d

/-- The index-half form of the accumulator operation `ooo` (R270). -/
def aluHalf (ooo : Nat) (x : IndexReg) (u : IndexHalf) : Instr :=
  match ooo with
  | 0 => .addXh x u
  | 1 => .adcXh x u
  | 2 => .subXh x u
  | 3 => .sbcXh x u
  | 4 => .andXh x u
  | 5 => .xorXh x u
  | 6 => .orXh x u
  | _ => .cpXh x u

/-- The register form of rotate or shift `ooo` (R112, 46_rotate_shift.md R340). -/
def rotReg (ooo : Nat) (r : Reg8) : Instr :=
  match ooo with
  | 0 => .rlcR r
  | 1 => .rrcR r
  | 2 => .rlR r
  | 3 => .rrR r
  | 4 => .slaR r
  | 5 => .sraR r
  | 6 => .sllR r
  | _ => .srlR r

/-- The `(HL)` form of rotate or shift `ooo` (R340). -/
def rotMem (ooo : Nat) : Instr :=
  match ooo with
  | 0 => .rlcHl
  | 1 => .rrcHl
  | 2 => .rlHl
  | 3 => .rrHl
  | 4 => .slaHl
  | 5 => .sraHl
  | 6 => .sllHl
  | _ => .srlHl

/-- The `(XY+d)` form of rotate or shift `ooo` (R340). -/
def rotIdx (ooo : Nat) (x : IndexReg) (d : Byte) : Instr :=
  match ooo with
  | 0 => .rlcXd x d
  | 1 => .rrcXd x d
  | 2 => .rlXd x d
  | 3 => .rrXd x d
  | 4 => .slaXd x d
  | 5 => .sraXd x d
  | 6 => .sllXd x d
  | _ => .srlXd x d

/-- The `(XY+d)` form with register copy of rotate or shift `ooo` (R340). -/
def rotIdxCopy (ooo : Nat) (x : IndexReg) (d : Byte) (r : Reg8) : Instr :=
  match ooo with
  | 0 => .rlcXdR x d r
  | 1 => .rrcXdR x d r
  | 2 => .rlXdR x d r
  | 3 => .rrXdR x d r
  | 4 => .slaXdR x d r
  | 5 => .sraXdR x d r
  | 6 => .sllXdR x d r
  | _ => .srlXdR x d r

/-! ## The decoder -/

/-- Why the decoder gives no instruction. -/
inductive DecodeReject where
  /-- The bytes match no row of opcode_table.json: `refuse(NotInBlock)` (R115, 60_exceptions.md R456). -/
  | notInBlock
  deriving DecidableEq, Repr

/-- Quadrant `00` of the unprefixed map (R122): all 64 opcodes are admitted. -/
def decodeQuadrant0 (op : Byte) (n : Byte) (nn : Word) : Instr :=
  match zOf op with
  | 0 =>
    match yOf op with
    | 0 => .nop
    | 1 => .exAfAf
    | 2 => .djnz n
    | 3 => .jrE n
    | y => .jrCc (relCondOfCode (y - 4)) n
  | 1 => if bit3Of op = 0 then .ldDdNn (regPairOfCode (ppOf op)) nn else .addHlSs (regPairOfCode (ppOf op))
  | 2 =>
    match yOf op with
    | 4 => .ldAbsHl nn
    | 5 => .ldHlAbs nn
    | 6 => .ldAbsA nn
    | 7 => .ldAAbs nn
    | _ => if bit3Of op = 0 then .ldPtrA (ptrPairOfCode (field op 4 1)) else .ldAPtr (ptrPairOfCode (field op 4 1))
  | 3 => if bit3Of op = 0 then .incSs (regPairOfCode (ppOf op)) else .decSs (regPairOfCode (ppOf op))
  | 4 =>
    match reg8OfCode (yOf op) with
    | some r => .incR r
    | none => .incHl
  | 5 =>
    match reg8OfCode (yOf op) with
    | some r => .decR r
    | none => .decHl
  | 6 =>
    match reg8OfCode (yOf op) with
    | some r => .ldRN r n
    | none => .ldHlN n
  | _ =>
    match yOf op with
    | 0 => .rlca
    | 1 => .rrca
    | 2 => .rla
    | 3 => .rra
    | 4 => .daa
    | 5 => .cpl
    | 6 => .scf
    | _ => .ccf

/-- Quadrant `01` (R122): `LD r,r'`, with `01110110` the `HALT`. -/
def decodeQuadrant1 (op : Byte) : Instr :=
  match reg8OfCode (yOf op), reg8OfCode (zOf op) with
  | some dst, some src => .ldRR dst src
  | some dst, none => .ldRHl dst
  | none, some src => .ldHlR src
  | none, none => .halt

/-- Quadrant `10` (R122): the accumulator operations on a register or `(HL)`. -/
def decodeQuadrant2 (op : Byte) : Instr :=
  match reg8OfCode (zOf op) with
  | some r => aluReg (yOf op) r
  | none => aluMem (yOf op)

/-- Quadrant `11` (R122), without the four prefix bytes; `D3`, `DB`, `F3` and `FB` are refused. -/
def decodeQuadrant3 (op : Byte) (n : Byte) (nn : Word) : Except DecodeReject Instr :=
  match zOf op with
  | 0 => .ok (.retCc (condOfCode (yOf op)))
  | 1 =>
    match yOf op with
    | 1 => .ok .ret
    | 3 => .ok .exx
    | 5 => .ok .jpHl
    | 7 => .ok .ldSpHl
    | _ => .ok (.popQq (stackPairOfCode (ppOf op)))
  | 2 => .ok (.jpCc (condOfCode (yOf op)) nn)
  | 3 =>
    match yOf op with
    | 0 => .ok (.jpNn nn)
    | 4 => .ok .exSpHl
    | 5 => .ok .exDeHl
    | _ => .error .notInBlock
  | 4 => .ok (.callCc (condOfCode (yOf op)) nn)
  | 5 =>
    match yOf op with
    | 1 => .ok (.callNn nn)
    | 3 | 5 | 7 => .error .notInBlock
    | _ => .ok (.pushQq (stackPairOfCode (ppOf op)))
  | 6 => .ok (aluImm (yOf op) n)
  | _ => .ok (.rst (fin8OfCode (yOf op)))

/-- The `CB` rows (R112): all 256 are admitted. -/
def decodeCb (op : Byte) : Instr :=
  match quadrantOf op, reg8OfCode (zOf op) with
  | 0, some r => rotReg (yOf op) r
  | 0, none => rotMem (yOf op)
  | 1, some r => .bitR (fin8OfCode (yOf op)) r
  | 1, none => .bitHl (fin8OfCode (yOf op))
  | 2, some r => .resR (fin8OfCode (yOf op)) r
  | 2, none => .resHl (fin8OfCode (yOf op))
  | _, some r => .setR (fin8OfCode (yOf op)) r
  | _, none => .setHl (fin8OfCode (yOf op))

/-- The `ED` rows (R114); every other `ED op` is refused. -/
def decodeEd (op : Byte) (nn : Word) : Except DecodeReject Instr :=
  if op = 0x44 then .ok .neg
  else if op = 0x47 then .ok .ldIA
  else if op = 0x4F then .ok .ldRefreshA
  else if op = 0x57 then .ok .ldAI
  else if op = 0x5F then .ok .ldARefresh
  else if quadrantOf op = 1 then
    match zOf op, bit3Of op with
    | 2, 0 => .ok (.sbcHlSs (regPairOfCode (ppOf op)))
    | 2, _ => .ok (.adcHlSs (regPairOfCode (ppOf op)))
    | 3, 0 => .ok (.ldAbsDd (regPairOfCode (ppOf op)) nn)
    | 3, _ => .ok (.ldDdAbs (regPairOfCode (ppOf op)) nn)
    | _, _ => .error .notInBlock
  else .error .notInBlock

/-- The `XCB` rows (R113): `d` comes before the last opcode byte. -/
def decodeXcb (x : IndexReg) (d op : Byte) : Except DecodeReject Instr :=
  match quadrantOf op, reg8OfCode (zOf op) with
  | 0, some r => .ok (rotIdxCopy (yOf op) x d r)
  | 0, none => .ok (rotIdx (yOf op) x d)
  | 1, none => .ok (.bitXd (fin8OfCode (yOf op)) x d)
  | 2, none => .ok (.resXd (fin8OfCode (yOf op)) x d)
  | 3, none => .ok (.setXd (fin8OfCode (yOf op)) x d)
  | _, _ => .error .notInBlock

/-- Quadrant `00` of the `X*` rows. -/
def decodeX0 (x : IndexReg) (op b2 b3 : Byte) : Except DecodeReject Instr :=
  if op = 0x21 then .ok (.ldXyNn x (join b3 b2))
  else if op = 0x22 then .ok (.ldAbsXy x (join b3 b2))
  else if op = 0x2A then .ok (.ldXyAbs x (join b3 b2))
  else if op = 0x23 then .ok (.incXy x)
  else if op = 0x2B then .ok (.decXy x)
  else if op = 0x34 then .ok (.incXd x b2)
  else if op = 0x35 then .ok (.decXd x b2)
  else if op = 0x36 then .ok (.ldXdN x b2 b3)
  else
    match zOf op, ppOf op with
    | 1, p => if bit3Of op = 1 then .ok (.addXyPp x (indexAddPairOfCode p)) else .error .notInBlock
    | 4, 2 => .ok (.incXh x (halfOfCode (bit3Of op)))
    | 5, 2 => .ok (.decXh x (halfOfCode (bit3Of op)))
    | 6, 2 => .ok (.ldXhN x (halfOfCode (bit3Of op)) b2)
    | _, _ => .error .notInBlock

/-- Quadrant `01` of the `X*` rows: the indexed loads (R111) and the index-half copies (R109, R110). -/
def decodeX1 (x : IndexReg) (op b2 : Byte) : Except DecodeReject Instr :=
  match rhoOfCode (yOf op), rhoOfCode (zOf op), reg8OfCode (yOf op), reg8OfCode (zOf op) with
  | some t, some s, _, _ => if t.isHalf || s.isHalf then .ok (.ldRho x t s) else .error .notInBlock
  | _, none, some r, _ => .ok (.ldRXd r x b2)
  | none, _, _, some r => .ok (.ldXdR x b2 r)
  | _, _, _, _ => .error .notInBlock

/-- Quadrant `10` of the `X*` rows: the accumulator operations on `(XY+d)` or an index half (R110). -/
def decodeX2 (x : IndexReg) (op b2 : Byte) : Except DecodeReject Instr :=
  match zOf op with
  | 4 => .ok (aluHalf (yOf op) x .high)
  | 5 => .ok (aluHalf (yOf op) x .low)
  | 6 => .ok (aluIdx (yOf op) x b2)
  | _ => .error .notInBlock

/-- Quadrant `11` of the `X*` rows. -/
def decodeX3 (x : IndexReg) (op : Byte) : Except DecodeReject Instr :=
  if op = 0xE1 then .ok (.popXy x)
  else if op = 0xE3 then .ok (.exSpXy x)
  else if op = 0xE5 then .ok (.pushXy x)
  else if op = 0xE9 then .ok (.jpXy x)
  else if op = 0xF9 then .ok (.ldSpXy x)
  else .error .notInBlock

/-- A `DD` or `FD` prefix and what follows it (R115): any combination without a row is refused. -/
def decodeIndex (x : IndexReg) (op b2 b3 : Byte) : Except DecodeReject Instr :=
  if op = 0xCB then decodeXcb x b2 b3
  else
    match quadrantOf op with
    | 0 => decodeX0 x op b2 b3
    | 1 => decodeX1 x op b2
    | 2 => decodeX2 x op b2
    | _ => decodeX3 x op

/-- `decode` (R115, R120): total on any bytes, by the first byte. -/
def decode (b0 b1 b2 b3 : Byte) : Except DecodeReject Instr :=
  if b0 = 0xCB then .ok (decodeCb b1)
  else if b0 = 0xED then decodeEd b1 (join b3 b2)
  else if b0 = 0xDD then decodeIndex .ix b1 b2 b3
  else if b0 = 0xFD then decodeIndex .iy b1 b2 b3
  else
    match quadrantOf b0 with
    | 0 => .ok (decodeQuadrant0 b0 b1 (join b2 b1))
    | 1 => .ok (decodeQuadrant1 b0)
    | 2 => .ok (decodeQuadrant2 b0)
    | _ => decodeQuadrant3 b0 b1 (join b2 b1)

/-- How many bytes the decoder has read when it refuses: the prefix bytes and the opcode byte that has no row (R115). An `XCB`
opcode is the fourth byte (R101). -/
def refusedLength (b0 b1 : Byte) : Nat :=
  if b0 = 0xED then 2
  else if b0 = 0xDD || b0 = 0xFD then (if b1 = 0xCB then 4 else 2)
  else 1

/-- Bytes after the end of a list are zeros. -/
def byteAt (bytes : List Byte) (k : Nat) : Byte := bytes.getD k 0

/-- `decode` of the bytes of a list, first byte first, padded with zeros. -/
def decodeBytes (bytes : List Byte) : Except DecodeReject Instr :=
  decode (byteAt bytes 0) (byteAt bytes 1) (byteAt bytes 2) (byteAt bytes 3)

/-- The bytes of a word of opcode_table.json, padded with zeros to the longest instruction: the table numbers an instruction's
bits with the FIRST byte in the most significant position (R119; its `match`, `mask` and `fixed`). Log entry 13. -/
def tableWordBytes (nbits w : Nat) : List Byte :=
  let len := nbits / 8
  [0, 1, 2, 3].map fun k => if k < len then BitVec.ofNat 8 (w / 2 ^ (8 * (len - 1 - k))) else 0

/-- The instruction this decoder reads from a table word (see `tableWordBytes`); `none` where it refuses. -/
def decodeTableWord (nbits w : Nat) : Option Instr :=
  match decodeBytes (tableWordBytes nbits w) with
  | .ok i => some i
  | .error .notInBlock => none

/-! ## The encoder -/

/-- The code of R103. -/
def reg8Code : Reg8 → Nat
  | .b => 0
  | .c => 1
  | .d => 2
  | .e => 3
  | .h => 4
  | .l => 5
  | .a => 7

/-- The code of R109. -/
def rhoCode : Rho → Nat
  | .b => 0
  | .c => 1
  | .d => 2
  | .e => 3
  | .xh => 4
  | .xl => 5
  | .a => 7

/-- The code of R104, table `dd`. -/
def regPairCode : RegPair → Nat
  | .bc => 0
  | .de => 1
  | .hl => 2
  | .sp => 3

/-- The code of R104, table `qq`. -/
def stackPairCode : StackPair → Nat
  | .bc => 0
  | .de => 1
  | .hl => 2
  | .af => 3

/-- The code of R104, table `ppx`. -/
def indexAddPairCode : IndexAddPair → Nat
  | .bc => 0
  | .de => 1
  | .xy => 2
  | .sp => 3

/-- Field `q` (R102). -/
def ptrPairCode : PtrPair → Nat
  | .bc => 0
  | .de => 1

/-- Field `u` (R102). -/
def halfCode : IndexHalf → Nat
  | .high => 0
  | .low => 1

/-- Field `ccc` (R105). -/
def condCode : Cond → Nat
  | .nz => 0
  | .z => 1
  | .nc => 2
  | .c => 3
  | .po => 4
  | .pe => 5
  | .p => 6
  | .m => 7

/-- Field `cc` (R105). -/
def relCondCode : RelCond → Nat
  | .nz => 0
  | .z => 1
  | .nc => 2
  | .c => 3

/-- The prefix byte (R106). -/
def prefixOf : IndexReg → Byte
  | .ix => 0xDD
  | .iy => 0xFD

/-- An opcode byte from its fixed bits and its fields. -/
def opcode (n : Nat) : Byte := BitVec.ofNat 8 n

/-- The bytes of an instruction, first byte first: the column `encoding` of opcode_table.json (R101, R119). -/
def encode : Instr → List Byte
  | .nop => [0x00]
  | .ldRR dst src => [opcode (0x40 + reg8Code dst * 8 + reg8Code src)]
  | .ldRN dst n => [opcode (0x06 + reg8Code dst * 8), n]
  | .ldRHl dst => [opcode (0x46 + reg8Code dst * 8)]
  | .ldHlR r => [opcode (0x70 + reg8Code r)]
  | .ldHlN n => [0x36, n]
  | .ldAPtr q => [opcode (0x0A + ptrPairCode q * 16)]
  | .ldAAbs nn => [0x3A, lo nn, hi nn]
  | .ldPtrA q => [opcode (0x02 + ptrPairCode q * 16)]
  | .ldAbsA nn => [0x32, lo nn, hi nn]
  | .ldDdNn p nn => [opcode (0x01 + regPairCode p * 16), lo nn, hi nn]
  | .ldHlAbs nn => [0x2A, lo nn, hi nn]
  | .ldAbsHl nn => [0x22, lo nn, hi nn]
  | .ldSpHl => [0xF9]
  | .pushQq p => [opcode (0xC5 + stackPairCode p * 16)]
  | .popQq p => [opcode (0xC1 + stackPairCode p * 16)]
  | .exDeHl => [0xEB]
  | .exAfAf => [0x08]
  | .exx => [0xD9]
  | .exSpHl => [0xE3]
  | .addR r => [opcode (0x80 + reg8Code r)]
  | .addN n => [0xC6, n]
  | .addHl => [0x86]
  | .adcR r => [opcode (0x88 + reg8Code r)]
  | .adcN n => [0xCE, n]
  | .adcHl => [0x8E]
  | .subR r => [opcode (0x90 + reg8Code r)]
  | .subN n => [0xD6, n]
  | .subHl => [0x96]
  | .sbcR r => [opcode (0x98 + reg8Code r)]
  | .sbcN n => [0xDE, n]
  | .sbcHl => [0x9E]
  | .andR r => [opcode (0xA0 + reg8Code r)]
  | .andN n => [0xE6, n]
  | .andHl => [0xA6]
  | .xorR r => [opcode (0xA8 + reg8Code r)]
  | .xorN n => [0xEE, n]
  | .xorHl => [0xAE]
  | .orR r => [opcode (0xB0 + reg8Code r)]
  | .orN n => [0xF6, n]
  | .orHl => [0xB6]
  | .cpR r => [opcode (0xB8 + reg8Code r)]
  | .cpN n => [0xFE, n]
  | .cpHl => [0xBE]
  | .incR r => [opcode (0x04 + reg8Code r * 8)]
  | .incHl => [0x34]
  | .decR r => [opcode (0x05 + reg8Code r * 8)]
  | .decHl => [0x35]
  | .addHlSs p => [opcode (0x09 + regPairCode p * 16)]
  | .incSs p => [opcode (0x03 + regPairCode p * 16)]
  | .decSs p => [opcode (0x0B + regPairCode p * 16)]
  | .rlca => [0x07]
  | .rrca => [0x0F]
  | .rla => [0x17]
  | .rra => [0x1F]
  | .daa => [0x27]
  | .cpl => [0x2F]
  | .scf => [0x37]
  | .ccf => [0x3F]
  | .halt => [0x76]
  | .jpNn nn => [0xC3, lo nn, hi nn]
  | .jpCc cc nn => [opcode (0xC2 + condCode cc * 8), lo nn, hi nn]
  | .jpHl => [0xE9]
  | .jrE e => [0x18, e]
  | .jrCc cc e => [opcode (0x20 + relCondCode cc * 8), e]
  | .djnz e => [0x10, e]
  | .callNn nn => [0xCD, lo nn, hi nn]
  | .callCc cc nn => [opcode (0xC4 + condCode cc * 8), lo nn, hi nn]
  | .ret => [0xC9]
  | .retCc cc => [opcode (0xC0 + condCode cc * 8)]
  | .rst t => [opcode (0xC7 + t.val * 8)]
  | .rlcR r => [0xCB, opcode (0x00 + reg8Code r)]
  | .rlcHl => [0xCB, 0x06]
  | .rrcR r => [0xCB, opcode (0x08 + reg8Code r)]
  | .rrcHl => [0xCB, 0x0E]
  | .rlR r => [0xCB, opcode (0x10 + reg8Code r)]
  | .rlHl => [0xCB, 0x16]
  | .rrR r => [0xCB, opcode (0x18 + reg8Code r)]
  | .rrHl => [0xCB, 0x1E]
  | .slaR r => [0xCB, opcode (0x20 + reg8Code r)]
  | .slaHl => [0xCB, 0x26]
  | .sraR r => [0xCB, opcode (0x28 + reg8Code r)]
  | .sraHl => [0xCB, 0x2E]
  | .sllR r => [0xCB, opcode (0x30 + reg8Code r)]
  | .sllHl => [0xCB, 0x36]
  | .srlR r => [0xCB, opcode (0x38 + reg8Code r)]
  | .srlHl => [0xCB, 0x3E]
  | .bitR b r => [0xCB, opcode (0x40 + b.val * 8 + reg8Code r)]
  | .bitHl b => [0xCB, opcode (0x46 + b.val * 8)]
  | .resR b r => [0xCB, opcode (0x80 + b.val * 8 + reg8Code r)]
  | .resHl b => [0xCB, opcode (0x86 + b.val * 8)]
  | .setR b r => [0xCB, opcode (0xC0 + b.val * 8 + reg8Code r)]
  | .setHl b => [0xCB, opcode (0xC6 + b.val * 8)]
  | .ldDdAbs p nn => [0xED, opcode (0x4B + regPairCode p * 16), lo nn, hi nn]
  | .ldAbsDd p nn => [0xED, opcode (0x43 + regPairCode p * 16), lo nn, hi nn]
  | .adcHlSs p => [0xED, opcode (0x4A + regPairCode p * 16)]
  | .sbcHlSs p => [0xED, opcode (0x42 + regPairCode p * 16)]
  | .neg => [0xED, 0x44]
  | .ldIA => [0xED, 0x47]
  | .ldRefreshA => [0xED, 0x4F]
  | .ldAI => [0xED, 0x57]
  | .ldARefresh => [0xED, 0x5F]
  | .ldXyNn x nn => [prefixOf x, 0x21, lo nn, hi nn]
  | .ldXyAbs x nn => [prefixOf x, 0x2A, lo nn, hi nn]
  | .ldAbsXy x nn => [prefixOf x, 0x22, lo nn, hi nn]
  | .ldSpXy x => [prefixOf x, 0xF9]
  | .pushXy x => [prefixOf x, 0xE5]
  | .popXy x => [prefixOf x, 0xE1]
  | .exSpXy x => [prefixOf x, 0xE3]
  | .incXy x => [prefixOf x, 0x23]
  | .decXy x => [prefixOf x, 0x2B]
  | .addXyPp x p => [prefixOf x, opcode (0x09 + indexAddPairCode p * 16)]
  | .jpXy x => [prefixOf x, 0xE9]
  | .ldRXd r x d => [prefixOf x, opcode (0x46 + reg8Code r * 8), d]
  | .ldXdR x d r => [prefixOf x, opcode (0x70 + reg8Code r), d]
  | .ldXdN x d n => [prefixOf x, 0x36, d, n]
  | .addXd x d => [prefixOf x, 0x86, d]
  | .addXh x u => [prefixOf x, opcode (0x84 + halfCode u)]
  | .adcXd x d => [prefixOf x, 0x8E, d]
  | .adcXh x u => [prefixOf x, opcode (0x8C + halfCode u)]
  | .subXd x d => [prefixOf x, 0x96, d]
  | .subXh x u => [prefixOf x, opcode (0x94 + halfCode u)]
  | .sbcXd x d => [prefixOf x, 0x9E, d]
  | .sbcXh x u => [prefixOf x, opcode (0x9C + halfCode u)]
  | .andXd x d => [prefixOf x, 0xA6, d]
  | .andXh x u => [prefixOf x, opcode (0xA4 + halfCode u)]
  | .xorXd x d => [prefixOf x, 0xAE, d]
  | .xorXh x u => [prefixOf x, opcode (0xAC + halfCode u)]
  | .orXd x d => [prefixOf x, 0xB6, d]
  | .orXh x u => [prefixOf x, opcode (0xB4 + halfCode u)]
  | .cpXd x d => [prefixOf x, 0xBE, d]
  | .cpXh x u => [prefixOf x, opcode (0xBC + halfCode u)]
  | .incXd x d => [prefixOf x, 0x34, d]
  | .decXd x d => [prefixOf x, 0x35, d]
  | .ldRho x t s => [prefixOf x, opcode (0x40 + rhoCode t * 8 + rhoCode s)]
  | .ldXhN x u n => [prefixOf x, opcode (0x26 + halfCode u * 8), n]
  | .incXh x u => [prefixOf x, opcode (0x24 + halfCode u * 8)]
  | .decXh x u => [prefixOf x, opcode (0x25 + halfCode u * 8)]
  | .rlcXd x d => [prefixOf x, 0xCB, d, 0x06]
  | .rlcXdR x d r => [prefixOf x, 0xCB, d, opcode (0x00 + reg8Code r)]
  | .rrcXd x d => [prefixOf x, 0xCB, d, 0x0E]
  | .rrcXdR x d r => [prefixOf x, 0xCB, d, opcode (0x08 + reg8Code r)]
  | .rlXd x d => [prefixOf x, 0xCB, d, 0x16]
  | .rlXdR x d r => [prefixOf x, 0xCB, d, opcode (0x10 + reg8Code r)]
  | .rrXd x d => [prefixOf x, 0xCB, d, 0x1E]
  | .rrXdR x d r => [prefixOf x, 0xCB, d, opcode (0x18 + reg8Code r)]
  | .slaXd x d => [prefixOf x, 0xCB, d, 0x26]
  | .slaXdR x d r => [prefixOf x, 0xCB, d, opcode (0x20 + reg8Code r)]
  | .sraXd x d => [prefixOf x, 0xCB, d, 0x2E]
  | .sraXdR x d r => [prefixOf x, 0xCB, d, opcode (0x28 + reg8Code r)]
  | .sllXd x d => [prefixOf x, 0xCB, d, 0x36]
  | .sllXdR x d r => [prefixOf x, 0xCB, d, opcode (0x30 + reg8Code r)]
  | .srlXd x d => [prefixOf x, 0xCB, d, 0x3E]
  | .srlXdR x d r => [prefixOf x, 0xCB, d, opcode (0x38 + reg8Code r)]
  | .bitXd b x d => [prefixOf x, 0xCB, d, opcode (0x46 + b.val * 8)]
  | .resXd b x d => [prefixOf x, 0xCB, d, opcode (0x86 + b.val * 8)]
  | .setXd b x d => [prefixOf x, 0xCB, d, opcode (0xC6 + b.val * 8)]

/-- The length of an instruction in bytes: the column `length` of opcode_table.json (R118). -/
def Instr.length : Instr → Nat
  | .nop => 1
  | .ldRR _ _ => 1
  | .ldRN _ _ => 2
  | .ldRHl _ => 1
  | .ldHlR _ => 1
  | .ldHlN _ => 2
  | .ldAPtr _ => 1
  | .ldAAbs _ => 3
  | .ldPtrA _ => 1
  | .ldAbsA _ => 3
  | .ldDdNn _ _ => 3
  | .ldHlAbs _ => 3
  | .ldAbsHl _ => 3
  | .ldSpHl => 1
  | .pushQq _ => 1
  | .popQq _ => 1
  | .exDeHl => 1
  | .exAfAf => 1
  | .exx => 1
  | .exSpHl => 1
  | .addR _ => 1
  | .addN _ => 2
  | .addHl => 1
  | .adcR _ => 1
  | .adcN _ => 2
  | .adcHl => 1
  | .subR _ => 1
  | .subN _ => 2
  | .subHl => 1
  | .sbcR _ => 1
  | .sbcN _ => 2
  | .sbcHl => 1
  | .andR _ => 1
  | .andN _ => 2
  | .andHl => 1
  | .xorR _ => 1
  | .xorN _ => 2
  | .xorHl => 1
  | .orR _ => 1
  | .orN _ => 2
  | .orHl => 1
  | .cpR _ => 1
  | .cpN _ => 2
  | .cpHl => 1
  | .incR _ => 1
  | .incHl => 1
  | .decR _ => 1
  | .decHl => 1
  | .addHlSs _ => 1
  | .incSs _ => 1
  | .decSs _ => 1
  | .rlca => 1
  | .rrca => 1
  | .rla => 1
  | .rra => 1
  | .daa => 1
  | .cpl => 1
  | .scf => 1
  | .ccf => 1
  | .halt => 1
  | .jpNn _ => 3
  | .jpCc _ _ => 3
  | .jpHl => 1
  | .jrE _ => 2
  | .jrCc _ _ => 2
  | .djnz _ => 2
  | .callNn _ => 3
  | .callCc _ _ => 3
  | .ret => 1
  | .retCc _ => 1
  | .rst _ => 1
  | .rlcR _ => 2
  | .rlcHl => 2
  | .rrcR _ => 2
  | .rrcHl => 2
  | .rlR _ => 2
  | .rlHl => 2
  | .rrR _ => 2
  | .rrHl => 2
  | .slaR _ => 2
  | .slaHl => 2
  | .sraR _ => 2
  | .sraHl => 2
  | .sllR _ => 2
  | .sllHl => 2
  | .srlR _ => 2
  | .srlHl => 2
  | .bitR _ _ => 2
  | .bitHl _ => 2
  | .resR _ _ => 2
  | .resHl _ => 2
  | .setR _ _ => 2
  | .setHl _ => 2
  | .ldDdAbs _ _ => 4
  | .ldAbsDd _ _ => 4
  | .adcHlSs _ => 2
  | .sbcHlSs _ => 2
  | .neg => 2
  | .ldIA => 2
  | .ldRefreshA => 2
  | .ldAI => 2
  | .ldARefresh => 2
  | .ldXyNn _ _ => 4
  | .ldXyAbs _ _ => 4
  | .ldAbsXy _ _ => 4
  | .ldSpXy _ => 2
  | .pushXy _ => 2
  | .popXy _ => 2
  | .exSpXy _ => 2
  | .incXy _ => 2
  | .decXy _ => 2
  | .addXyPp _ _ => 2
  | .jpXy _ => 2
  | .ldRXd _ _ _ => 3
  | .ldXdR _ _ _ => 3
  | .ldXdN _ _ _ => 4
  | .addXd _ _ => 3
  | .addXh _ _ => 2
  | .adcXd _ _ => 3
  | .adcXh _ _ => 2
  | .subXd _ _ => 3
  | .subXh _ _ => 2
  | .sbcXd _ _ => 3
  | .sbcXh _ _ => 2
  | .andXd _ _ => 3
  | .andXh _ _ => 2
  | .xorXd _ _ => 3
  | .xorXh _ _ => 2
  | .orXd _ _ => 3
  | .orXh _ _ => 2
  | .cpXd _ _ => 3
  | .cpXh _ _ => 2
  | .incXd _ _ => 3
  | .decXd _ _ => 3
  | .ldRho _ _ _ => 2
  | .ldXhN _ _ _ => 3
  | .incXh _ _ => 2
  | .decXh _ _ => 2
  | .rlcXd _ _ => 4
  | .rlcXdR _ _ _ => 4
  | .rrcXd _ _ => 4
  | .rrcXdR _ _ _ => 4
  | .rlXd _ _ => 4
  | .rlXdR _ _ _ => 4
  | .rrXd _ _ => 4
  | .rrXdR _ _ _ => 4
  | .slaXd _ _ => 4
  | .slaXdR _ _ _ => 4
  | .sraXd _ _ => 4
  | .sraXdR _ _ _ => 4
  | .sllXd _ _ => 4
  | .sllXdR _ _ _ => 4
  | .srlXd _ _ => 4
  | .srlXdR _ _ _ => 4
  | .bitXd _ _ _ => 4
  | .resXd _ _ _ => 4
  | .setXd _ _ _ => 4

/-! ## The opcode table -/

/-- A constraint of the `fields` column (R119); `op` is the instruction's opcode byte. -/
inductive Constraint where
  /-- `rrr != 110`. -/
  | destNotMem
  /-- `sss != 110`. -/
  | srcNotMem
  /-- `rrr in {100,101} or sss in {100,101}`. -/
  | someHalf
  deriving DecidableEq, Repr

/-- A row of opcode_table.json: its mnemonic, its length, its `match` and `mask` over all `length` bytes with the first byte
most significant, and its constraints (R119). -/
structure OpcodeRow where
  mnemonic : String
  length : Nat
  value : Nat
  mask : Nat
  constraints : List Constraint
  deriving DecidableEq, Repr

/-- Rows of the `unprefixed` formats. -/
def unprefixedRows : List OpcodeRow := [
  ⟨"NOP", 1, 0x00, 0xFF, []⟩,
  ⟨"LD_r_r", 1, 0x40, 0xC0, [.destNotMem, .srcNotMem]⟩,
  ⟨"LD_r_n", 2, 0x0600, 0xC700, [.destNotMem]⟩,
  ⟨"LD_r__HL", 1, 0x46, 0xC7, [.destNotMem]⟩,
  ⟨"LD__HL__r", 1, 0x70, 0xF8, [.srcNotMem]⟩,
  ⟨"LD__HL__n", 2, 0x3600, 0xFF00, []⟩,
  ⟨"LD_A__BC_DE", 1, 0x0A, 0xEF, []⟩,
  ⟨"LD_A__nn", 3, 0x3A0000, 0xFF0000, []⟩,
  ⟨"LD__BC_DE__A", 1, 0x02, 0xEF, []⟩,
  ⟨"LD__nn__A", 3, 0x320000, 0xFF0000, []⟩,
  ⟨"LD_dd_nn", 3, 0x010000, 0xCF0000, []⟩,
  ⟨"LD_HL__nn", 3, 0x2A0000, 0xFF0000, []⟩,
  ⟨"LD__nn__HL", 3, 0x220000, 0xFF0000, []⟩,
  ⟨"LD_SP_HL", 1, 0xF9, 0xFF, []⟩,
  ⟨"PUSH_qq", 1, 0xC5, 0xCF, []⟩,
  ⟨"POP_qq", 1, 0xC1, 0xCF, []⟩,
  ⟨"EX_DE_HL", 1, 0xEB, 0xFF, []⟩,
  ⟨"EX_AF_AF", 1, 0x08, 0xFF, []⟩,
  ⟨"EXX", 1, 0xD9, 0xFF, []⟩,
  ⟨"EX__SP__HL", 1, 0xE3, 0xFF, []⟩,
  ⟨"ADD_A_r", 1, 0x80, 0xF8, [.srcNotMem]⟩,
  ⟨"ADD_A_n", 2, 0xC600, 0xFF00, []⟩,
  ⟨"ADD_A__HL", 1, 0x86, 0xFF, []⟩,
  ⟨"ADC_A_r", 1, 0x88, 0xF8, [.srcNotMem]⟩,
  ⟨"ADC_A_n", 2, 0xCE00, 0xFF00, []⟩,
  ⟨"ADC_A__HL", 1, 0x8E, 0xFF, []⟩,
  ⟨"SUB_r", 1, 0x90, 0xF8, [.srcNotMem]⟩,
  ⟨"SUB_n", 2, 0xD600, 0xFF00, []⟩,
  ⟨"SUB__HL", 1, 0x96, 0xFF, []⟩,
  ⟨"SBC_A_r", 1, 0x98, 0xF8, [.srcNotMem]⟩,
  ⟨"SBC_A_n", 2, 0xDE00, 0xFF00, []⟩,
  ⟨"SBC_A__HL", 1, 0x9E, 0xFF, []⟩,
  ⟨"AND_r", 1, 0xA0, 0xF8, [.srcNotMem]⟩,
  ⟨"AND_n", 2, 0xE600, 0xFF00, []⟩,
  ⟨"AND__HL", 1, 0xA6, 0xFF, []⟩,
  ⟨"XOR_r", 1, 0xA8, 0xF8, [.srcNotMem]⟩]

/-- Rows of the `unprefixed` formats. -/
def unprefixedRowsB : List OpcodeRow := [
  ⟨"XOR_n", 2, 0xEE00, 0xFF00, []⟩,
  ⟨"XOR__HL", 1, 0xAE, 0xFF, []⟩,
  ⟨"OR_r", 1, 0xB0, 0xF8, [.srcNotMem]⟩,
  ⟨"OR_n", 2, 0xF600, 0xFF00, []⟩,
  ⟨"OR__HL", 1, 0xB6, 0xFF, []⟩,
  ⟨"CP_r", 1, 0xB8, 0xF8, [.srcNotMem]⟩,
  ⟨"CP_n", 2, 0xFE00, 0xFF00, []⟩,
  ⟨"CP__HL", 1, 0xBE, 0xFF, []⟩,
  ⟨"INC_r", 1, 0x04, 0xC7, [.destNotMem]⟩,
  ⟨"INC__HL", 1, 0x34, 0xFF, []⟩,
  ⟨"DEC_r", 1, 0x05, 0xC7, [.destNotMem]⟩,
  ⟨"DEC__HL", 1, 0x35, 0xFF, []⟩,
  ⟨"ADD_HL_ss", 1, 0x09, 0xCF, []⟩,
  ⟨"INC_ss", 1, 0x03, 0xCF, []⟩,
  ⟨"DEC_ss", 1, 0x0B, 0xCF, []⟩,
  ⟨"RLCA", 1, 0x07, 0xFF, []⟩,
  ⟨"RRCA", 1, 0x0F, 0xFF, []⟩,
  ⟨"RLA", 1, 0x17, 0xFF, []⟩,
  ⟨"RRA", 1, 0x1F, 0xFF, []⟩,
  ⟨"DAA", 1, 0x27, 0xFF, []⟩,
  ⟨"CPL", 1, 0x2F, 0xFF, []⟩,
  ⟨"SCF", 1, 0x37, 0xFF, []⟩,
  ⟨"CCF", 1, 0x3F, 0xFF, []⟩,
  ⟨"HALT", 1, 0x76, 0xFF, []⟩,
  ⟨"JP_nn", 3, 0xC30000, 0xFF0000, []⟩,
  ⟨"JP_cc_nn", 3, 0xC20000, 0xC70000, []⟩,
  ⟨"JP__HL", 1, 0xE9, 0xFF, []⟩,
  ⟨"JR_e", 2, 0x1800, 0xFF00, []⟩,
  ⟨"JR_cc_e", 2, 0x2000, 0xE700, []⟩,
  ⟨"DJNZ_e", 2, 0x1000, 0xFF00, []⟩,
  ⟨"CALL_nn", 3, 0xCD0000, 0xFF0000, []⟩,
  ⟨"CALL_cc_nn", 3, 0xC40000, 0xC70000, []⟩,
  ⟨"RET", 1, 0xC9, 0xFF, []⟩,
  ⟨"RET_cc", 1, 0xC0, 0xC7, []⟩,
  ⟨"RST_p", 1, 0xC7, 0xC7, []⟩]

/-- Rows of the `cb` formats. -/
def cbRows : List OpcodeRow := [
  ⟨"RLC_r", 2, 0xCB00, 0xFFF8, [.srcNotMem]⟩,
  ⟨"RLC__HL", 2, 0xCB06, 0xFFFF, []⟩,
  ⟨"RRC_r", 2, 0xCB08, 0xFFF8, [.srcNotMem]⟩,
  ⟨"RRC__HL", 2, 0xCB0E, 0xFFFF, []⟩,
  ⟨"RL_r", 2, 0xCB10, 0xFFF8, [.srcNotMem]⟩,
  ⟨"RL__HL", 2, 0xCB16, 0xFFFF, []⟩,
  ⟨"RR_r", 2, 0xCB18, 0xFFF8, [.srcNotMem]⟩,
  ⟨"RR__HL", 2, 0xCB1E, 0xFFFF, []⟩,
  ⟨"SLA_r", 2, 0xCB20, 0xFFF8, [.srcNotMem]⟩,
  ⟨"SLA__HL", 2, 0xCB26, 0xFFFF, []⟩,
  ⟨"SRA_r", 2, 0xCB28, 0xFFF8, [.srcNotMem]⟩,
  ⟨"SRA__HL", 2, 0xCB2E, 0xFFFF, []⟩,
  ⟨"SLL_r", 2, 0xCB30, 0xFFF8, [.srcNotMem]⟩,
  ⟨"SLL__HL", 2, 0xCB36, 0xFFFF, []⟩,
  ⟨"SRL_r", 2, 0xCB38, 0xFFF8, [.srcNotMem]⟩,
  ⟨"SRL__HL", 2, 0xCB3E, 0xFFFF, []⟩,
  ⟨"BIT_b_r", 2, 0xCB40, 0xFFC0, [.srcNotMem]⟩,
  ⟨"BIT_b__HL", 2, 0xCB46, 0xFFC7, []⟩,
  ⟨"RES_b_r", 2, 0xCB80, 0xFFC0, [.srcNotMem]⟩,
  ⟨"RES_b__HL", 2, 0xCB86, 0xFFC7, []⟩,
  ⟨"SET_b_r", 2, 0xCBC0, 0xFFC0, [.srcNotMem]⟩,
  ⟨"SET_b__HL", 2, 0xCBC6, 0xFFC7, []⟩]

/-- Rows of the `ed` formats. -/
def edRows : List OpcodeRow := [
  ⟨"LD_dd__nn", 4, 0xED4B0000, 0xFFCF0000, []⟩,
  ⟨"LD__nn__dd", 4, 0xED430000, 0xFFCF0000, []⟩,
  ⟨"ADC_HL_ss", 2, 0xED4A, 0xFFCF, []⟩,
  ⟨"SBC_HL_ss", 2, 0xED42, 0xFFCF, []⟩,
  ⟨"NEG", 2, 0xED44, 0xFFFF, []⟩,
  ⟨"LD_I_A", 2, 0xED47, 0xFFFF, []⟩,
  ⟨"LD_R_A", 2, 0xED4F, 0xFFFF, []⟩,
  ⟨"LD_A_I", 2, 0xED57, 0xFFFF, []⟩,
  ⟨"LD_A_R", 2, 0xED5F, 0xFFFF, []⟩]

/-- Rows of the `index` formats. -/
def indexRows : List OpcodeRow := [
  ⟨"LD_XY_nn", 4, 0xDD210000, 0xDFFF0000, []⟩,
  ⟨"LD_XY__nn", 4, 0xDD2A0000, 0xDFFF0000, []⟩,
  ⟨"LD__nn__XY", 4, 0xDD220000, 0xDFFF0000, []⟩,
  ⟨"LD_SP_XY", 2, 0xDDF9, 0xDFFF, []⟩,
  ⟨"PUSH_XY", 2, 0xDDE5, 0xDFFF, []⟩,
  ⟨"POP_XY", 2, 0xDDE1, 0xDFFF, []⟩,
  ⟨"EX__SP__XY", 2, 0xDDE3, 0xDFFF, []⟩,
  ⟨"INC_XY", 2, 0xDD23, 0xDFFF, []⟩,
  ⟨"DEC_XY", 2, 0xDD2B, 0xDFFF, []⟩,
  ⟨"ADD_XY_pp", 2, 0xDD09, 0xDFCF, []⟩,
  ⟨"JP__XY", 2, 0xDDE9, 0xDFFF, []⟩,
  ⟨"LD_r__XY+d", 3, 0xDD4600, 0xDFC700, [.destNotMem]⟩,
  ⟨"LD__XY+d__r", 3, 0xDD7000, 0xDFF800, [.srcNotMem]⟩,
  ⟨"LD__XY+d__n", 4, 0xDD360000, 0xDFFF0000, []⟩,
  ⟨"ADD_A__XY+d", 3, 0xDD8600, 0xDFFF00, []⟩,
  ⟨"ADD_A_XYH_XYL", 2, 0xDD84, 0xDFFE, []⟩,
  ⟨"ADC_A__XY+d", 3, 0xDD8E00, 0xDFFF00, []⟩,
  ⟨"ADC_A_XYH_XYL", 2, 0xDD8C, 0xDFFE, []⟩,
  ⟨"SUB__XY+d", 3, 0xDD9600, 0xDFFF00, []⟩,
  ⟨"SUB_XYH_XYL", 2, 0xDD94, 0xDFFE, []⟩,
  ⟨"SBC_A__XY+d", 3, 0xDD9E00, 0xDFFF00, []⟩,
  ⟨"SBC_A_XYH_XYL", 2, 0xDD9C, 0xDFFE, []⟩,
  ⟨"AND__XY+d", 3, 0xDDA600, 0xDFFF00, []⟩,
  ⟨"AND_XYH_XYL", 2, 0xDDA4, 0xDFFE, []⟩,
  ⟨"XOR__XY+d", 3, 0xDDAE00, 0xDFFF00, []⟩,
  ⟨"XOR_XYH_XYL", 2, 0xDDAC, 0xDFFE, []⟩,
  ⟨"OR__XY+d", 3, 0xDDB600, 0xDFFF00, []⟩,
  ⟨"OR_XYH_XYL", 2, 0xDDB4, 0xDFFE, []⟩,
  ⟨"CP__XY+d", 3, 0xDDBE00, 0xDFFF00, []⟩,
  ⟨"CP_XYH_XYL", 2, 0xDDBC, 0xDFFE, []⟩,
  ⟨"INC__XY+d", 3, 0xDD3400, 0xDFFF00, []⟩,
  ⟨"DEC__XY+d", 3, 0xDD3500, 0xDFFF00, []⟩,
  ⟨"LD", 2, 0xDD40, 0xDFC0, [.destNotMem, .srcNotMem, .someHalf]⟩,
  ⟨"LD_XYH_XYL_n", 3, 0xDD2600, 0xDFF700, []⟩,
  ⟨"INC_XYH_XYL", 2, 0xDD24, 0xDFF7, []⟩,
  ⟨"DEC_XYH_XYL", 2, 0xDD25, 0xDFF7, []⟩]

/-- Rows of the `indexCb` formats. -/
def indexCbRows : List OpcodeRow := [
  ⟨"RLC__XY+d", 4, 0xDDCB0006, 0xDFFF00FF, []⟩,
  ⟨"RLC__XY+d__r", 4, 0xDDCB0000, 0xDFFF00F8, [.srcNotMem]⟩,
  ⟨"RRC__XY+d", 4, 0xDDCB000E, 0xDFFF00FF, []⟩,
  ⟨"RRC__XY+d__r", 4, 0xDDCB0008, 0xDFFF00F8, [.srcNotMem]⟩,
  ⟨"RL__XY+d", 4, 0xDDCB0016, 0xDFFF00FF, []⟩,
  ⟨"RL__XY+d__r", 4, 0xDDCB0010, 0xDFFF00F8, [.srcNotMem]⟩,
  ⟨"RR__XY+d", 4, 0xDDCB001E, 0xDFFF00FF, []⟩,
  ⟨"RR__XY+d__r", 4, 0xDDCB0018, 0xDFFF00F8, [.srcNotMem]⟩,
  ⟨"SLA__XY+d", 4, 0xDDCB0026, 0xDFFF00FF, []⟩,
  ⟨"SLA__XY+d__r", 4, 0xDDCB0020, 0xDFFF00F8, [.srcNotMem]⟩,
  ⟨"SRA__XY+d", 4, 0xDDCB002E, 0xDFFF00FF, []⟩,
  ⟨"SRA__XY+d__r", 4, 0xDDCB0028, 0xDFFF00F8, [.srcNotMem]⟩,
  ⟨"SLL__XY+d", 4, 0xDDCB0036, 0xDFFF00FF, []⟩,
  ⟨"SLL__XY+d__r", 4, 0xDDCB0030, 0xDFFF00F8, [.srcNotMem]⟩,
  ⟨"SRL__XY+d", 4, 0xDDCB003E, 0xDFFF00FF, []⟩,
  ⟨"SRL__XY+d__r", 4, 0xDDCB0038, 0xDFFF00F8, [.srcNotMem]⟩,
  ⟨"BIT_b__XY+d", 4, 0xDDCB0046, 0xDFFF00C7, []⟩,
  ⟨"RES_b__XY+d", 4, 0xDDCB0086, 0xDFFF00C7, []⟩,
  ⟨"SET_b__XY+d", 4, 0xDDCB00C6, 0xDFFF00C7, []⟩]

/-- The rows of spec/opcode_table.json (R119). -/
def opcodeRows : List OpcodeRow :=
  unprefixedRows ++ unprefixedRowsB ++ cbRows ++ edRows ++ indexRows ++ indexCbRows

/-- The number whose bytes are the row's `length` first bytes, the first most significant (R119). -/
def rowWord (len : Nat) (b0 b1 b2 b3 : Byte) : Nat :=
  (b0.toNat * 2 ^ 24 + b1.toNat * 2 ^ 16 + b2.toNat * 2 ^ 8 + b3.toNat) / 2 ^ (8 * (4 - len))

/-- The opcode byte of a sequence: the last of its prefix and opcode bytes (R101). -/
def opcodeByte (b0 b1 b3 : Byte) : Byte :=
  if b0 = 0xCB || b0 = 0xED then b1
  else if b0 = 0xDD || b0 = 0xFD then (if b1 = 0xCB then b3 else b1)
  else b0

/-- The constraint holds of the opcode byte (R119). -/
def Constraint.holds (op : Byte) : Constraint → Bool
  | .destNotMem => yOf op != 6
  | .srcNotMem => zOf op != 6
  | .someHalf => yOf op == 4 || yOf op == 5 || zOf op == 4 || zOf op == 5

/-- The row matches the byte sequence: pattern and constraints (R119, R120). -/
def OpcodeRow.isMatch (row : OpcodeRow) (b0 b1 b2 b3 : Byte) : Bool :=
  (rowWord row.length b0 b1 b2 b3 &&& row.mask == row.value) && row.constraints.all (Constraint.holds (opcodeByte b0 b1 b3))

/-- The mnemonic of an instruction's row in opcode_table.json. -/
def Instr.mnemonic : Instr → String
  | .nop => "NOP"
  | .ldRR _ _ => "LD_r_r"
  | .ldRN _ _ => "LD_r_n"
  | .ldRHl _ => "LD_r__HL"
  | .ldHlR _ => "LD__HL__r"
  | .ldHlN _ => "LD__HL__n"
  | .ldAPtr _ => "LD_A__BC_DE"
  | .ldAAbs _ => "LD_A__nn"
  | .ldPtrA _ => "LD__BC_DE__A"
  | .ldAbsA _ => "LD__nn__A"
  | .ldDdNn _ _ => "LD_dd_nn"
  | .ldHlAbs _ => "LD_HL__nn"
  | .ldAbsHl _ => "LD__nn__HL"
  | .ldSpHl => "LD_SP_HL"
  | .pushQq _ => "PUSH_qq"
  | .popQq _ => "POP_qq"
  | .exDeHl => "EX_DE_HL"
  | .exAfAf => "EX_AF_AF"
  | .exx => "EXX"
  | .exSpHl => "EX__SP__HL"
  | .addR _ => "ADD_A_r"
  | .addN _ => "ADD_A_n"
  | .addHl => "ADD_A__HL"
  | .adcR _ => "ADC_A_r"
  | .adcN _ => "ADC_A_n"
  | .adcHl => "ADC_A__HL"
  | .subR _ => "SUB_r"
  | .subN _ => "SUB_n"
  | .subHl => "SUB__HL"
  | .sbcR _ => "SBC_A_r"
  | .sbcN _ => "SBC_A_n"
  | .sbcHl => "SBC_A__HL"
  | .andR _ => "AND_r"
  | .andN _ => "AND_n"
  | .andHl => "AND__HL"
  | .xorR _ => "XOR_r"
  | .xorN _ => "XOR_n"
  | .xorHl => "XOR__HL"
  | .orR _ => "OR_r"
  | .orN _ => "OR_n"
  | .orHl => "OR__HL"
  | .cpR _ => "CP_r"
  | .cpN _ => "CP_n"
  | .cpHl => "CP__HL"
  | .incR _ => "INC_r"
  | .incHl => "INC__HL"
  | .decR _ => "DEC_r"
  | .decHl => "DEC__HL"
  | .addHlSs _ => "ADD_HL_ss"
  | .incSs _ => "INC_ss"
  | .decSs _ => "DEC_ss"
  | .rlca => "RLCA"
  | .rrca => "RRCA"
  | .rla => "RLA"
  | .rra => "RRA"
  | .daa => "DAA"
  | .cpl => "CPL"
  | .scf => "SCF"
  | .ccf => "CCF"
  | .halt => "HALT"
  | .jpNn _ => "JP_nn"
  | .jpCc _ _ => "JP_cc_nn"
  | .jpHl => "JP__HL"
  | .jrE _ => "JR_e"
  | .jrCc _ _ => "JR_cc_e"
  | .djnz _ => "DJNZ_e"
  | .callNn _ => "CALL_nn"
  | .callCc _ _ => "CALL_cc_nn"
  | .ret => "RET"
  | .retCc _ => "RET_cc"
  | .rst _ => "RST_p"
  | .rlcR _ => "RLC_r"
  | .rlcHl => "RLC__HL"
  | .rrcR _ => "RRC_r"
  | .rrcHl => "RRC__HL"
  | .rlR _ => "RL_r"
  | .rlHl => "RL__HL"
  | .rrR _ => "RR_r"
  | .rrHl => "RR__HL"
  | .slaR _ => "SLA_r"
  | .slaHl => "SLA__HL"
  | .sraR _ => "SRA_r"
  | .sraHl => "SRA__HL"
  | .sllR _ => "SLL_r"
  | .sllHl => "SLL__HL"
  | .srlR _ => "SRL_r"
  | .srlHl => "SRL__HL"
  | .bitR _ _ => "BIT_b_r"
  | .bitHl _ => "BIT_b__HL"
  | .resR _ _ => "RES_b_r"
  | .resHl _ => "RES_b__HL"
  | .setR _ _ => "SET_b_r"
  | .setHl _ => "SET_b__HL"
  | .ldDdAbs _ _ => "LD_dd__nn"
  | .ldAbsDd _ _ => "LD__nn__dd"
  | .adcHlSs _ => "ADC_HL_ss"
  | .sbcHlSs _ => "SBC_HL_ss"
  | .neg => "NEG"
  | .ldIA => "LD_I_A"
  | .ldRefreshA => "LD_R_A"
  | .ldAI => "LD_A_I"
  | .ldARefresh => "LD_A_R"
  | .ldXyNn _ _ => "LD_XY_nn"
  | .ldXyAbs _ _ => "LD_XY__nn"
  | .ldAbsXy _ _ => "LD__nn__XY"
  | .ldSpXy _ => "LD_SP_XY"
  | .pushXy _ => "PUSH_XY"
  | .popXy _ => "POP_XY"
  | .exSpXy _ => "EX__SP__XY"
  | .incXy _ => "INC_XY"
  | .decXy _ => "DEC_XY"
  | .addXyPp _ _ => "ADD_XY_pp"
  | .jpXy _ => "JP__XY"
  | .ldRXd _ _ _ => "LD_r__XY+d"
  | .ldXdR _ _ _ => "LD__XY+d__r"
  | .ldXdN _ _ _ => "LD__XY+d__n"
  | .addXd _ _ => "ADD_A__XY+d"
  | .addXh _ _ => "ADD_A_XYH_XYL"
  | .adcXd _ _ => "ADC_A__XY+d"
  | .adcXh _ _ => "ADC_A_XYH_XYL"
  | .subXd _ _ => "SUB__XY+d"
  | .subXh _ _ => "SUB_XYH_XYL"
  | .sbcXd _ _ => "SBC_A__XY+d"
  | .sbcXh _ _ => "SBC_A_XYH_XYL"
  | .andXd _ _ => "AND__XY+d"
  | .andXh _ _ => "AND_XYH_XYL"
  | .xorXd _ _ => "XOR__XY+d"
  | .xorXh _ _ => "XOR_XYH_XYL"
  | .orXd _ _ => "OR__XY+d"
  | .orXh _ _ => "OR_XYH_XYL"
  | .cpXd _ _ => "CP__XY+d"
  | .cpXh _ _ => "CP_XYH_XYL"
  | .incXd _ _ => "INC__XY+d"
  | .decXd _ _ => "DEC__XY+d"
  | .ldRho _ _ _ => "LD"
  | .ldXhN _ _ _ => "LD_XYH_XYL_n"
  | .incXh _ _ => "INC_XYH_XYL"
  | .decXh _ _ => "DEC_XYH_XYL"
  | .rlcXd _ _ => "RLC__XY+d"
  | .rlcXdR _ _ _ => "RLC__XY+d__r"
  | .rrcXd _ _ => "RRC__XY+d"
  | .rrcXdR _ _ _ => "RRC__XY+d__r"
  | .rlXd _ _ => "RL__XY+d"
  | .rlXdR _ _ _ => "RL__XY+d__r"
  | .rrXd _ _ => "RR__XY+d"
  | .rrXdR _ _ _ => "RR__XY+d__r"
  | .slaXd _ _ => "SLA__XY+d"
  | .slaXdR _ _ _ => "SLA__XY+d__r"
  | .sraXd _ _ => "SRA__XY+d"
  | .sraXdR _ _ _ => "SRA__XY+d__r"
  | .sllXd _ _ => "SLL__XY+d"
  | .sllXdR _ _ _ => "SLL__XY+d__r"
  | .srlXd _ _ => "SRL__XY+d"
  | .srlXdR _ _ _ => "SRL__XY+d__r"
  | .bitXd _ _ _ => "BIT_b__XY+d"
  | .resXd _ _ _ => "RES_b__XY+d"
  | .setXd _ _ _ => "SET_b__XY+d"

end Sys2Proof
end

