-- ==== Sys2Proof/Config.lean ====
section
/-! DEFINITION. What an implementation fixes (00_scope.md R8) and the free values (R16). -/

namespace Sys2Proof

/-- `PAGE_SIZE`, the size of a code page (00_scope.md R8; 20_memory.md R79). -/
def Config.pageSize : Nat := 0x4000

/-- The free values: what `draw()` of 00_scope.md R16 returns at the `n`-th draw of a run. It has no body, so no proof can
know a value of it, and a claim about it holds for every value. `State.draws` counts the draws, so two draws of a run are
`freeByte n` and `freeByte m` with `n ≠ m` (92_eei_decisions.md D39). DESIGN CHOICE, safe: log entry 4. -/
opaque Config.freeByte : Nat → Byte

/-- `UNDOC_POLICY` (00_scope.md R8, 41_alu_flags.md R180). -/
inductive UndocPolicy where
  /-- The undocumented flag bits are free draws (the spec's default). -/
  | draw
  /-- The undocumented flag bits are copied as a Zilog Z80 copies them. -/
  | z80
  deriving DecidableEq, Repr

/-- A closed range of addresses. -/
structure AddrRange where
  first : Nat
  last : Nat
  deriving DecidableEq, Repr

/-- The launch parameters of 00_scope.md R8 that no instruction writes. `READABLE` and `WRITABLE` are given by the addresses
they leave out, so that the default of the spec, all 65536 addresses, is the empty list. DESIGN CHOICE, safe: log entry 3. -/
structure Params where
  /-- `UNDOC_POLICY`. -/
  undoc : UndocPolicy
  /-- The addresses outside `READABLE` (20_memory.md R78). -/
  noRead : List AddrRange
  /-- The addresses outside `WRITABLE` (20_memory.md R78). -/
  noWrite : List AddrRange
  /-- `HALT_SPEEDUP` (49_misc.md R435): only the IR of `HALT` depends on it. -/
  haltSpeedup : Bool
  deriving DecidableEq, Repr

/-- The values of the launch parameters at `State.reset`: the defaults of 00_scope.md R8, and `HALT_SPEEDUP` off, for which the
spec names no default (DESIGN CHOICE, safe: log entry 3). -/
def Params.default : Params :=
  { undoc := .draw, noRead := [], noWrite := [], haltSpeedup := false }

end Sys2Proof
end

