-- ==== Sys2Proof/Machine/Ir.lean ====
section
/-! DEFINITION. The IR in which the synthesis phase expresses an instruction's effect, and the constant-folding evaluator
(40_ir_fold.md R140 to R166). Evaluation against a state is in Machine/IrEval.lean, the templates in Machine/Template.lean. -/

namespace Sys2Proof.Machine

/-- An IR value: an unbounded integer or a Boolean (R146). -/
inductive Value where
  | num (n : Int)
  | bool (b : Bool)
  deriving DecidableEq, Repr

/-- The temporaries of a fragment (10_state.md R45, 40_ir_fold.md R172). -/
inductive Temp where
  | temp | val | value | location
  deriving DecidableEq, Repr

/-- The environment scalars an `Identifier` can name (R140, R147). -/
inductive EnvScalar where
  | pc | sp | tstates | page | im | eiInst | halt
  deriving DecidableEq, Repr

/-- What an `Identifier` names: a temporary or an environment scalar (R140). -/
inductive Ident where
  | tmp (t : Temp)
  | env (x : EnvScalar)
  deriving DecidableEq, Repr

/-- The registers a `Register` node names (R140), the shadow set and the index halves among them. -/
inductive IrReg where
  | a | f | b | c | d | e | h | l
  | a' | f' | b' | c' | d' | e' | h' | l'
  | ixh | ixl | iyh | iyl
  | i | r | sp | pc | iff1 | iff2
  deriving DecidableEq, Repr

/-- The pairs of the accessors `get<XY>` and `set<XY>` (R149). -/
inductive IrPair where
  | bc | de | hl | af | ix | iy
  deriving DecidableEq, Repr

/-- The pairs of `incHL`, `decHL`, `incBC`, `decBC`, `incDE`, `decDE` (R149). -/
inductive CountPair where
  | bc | de | hl
  deriving DecidableEq, Repr

/-- `Binary.op` (R145). -/
inductive BinOp where
  | add | sub | mul | mod | band | bor | bxor | shl | shr | eq | ne | lt | le | gt | ge
  deriving DecidableEq, Repr

/-- `Unary.op`: `~`, `!`, `-` (R145). -/
inductive UnOp where
  | bnot | lnot | neg
  deriving DecidableEq, Repr

/-- `Logical.op`: `&&`, `||` (R145). -/
inductive LogOp where
  | and | or
  deriving DecidableEq, Repr

/-- `Assign.op`: `=`, `+=`, `-=`, `&=`, `|=`, `^=` (R145). -/
inductive AssignOp where
  | set | add | sub | band | bor | bxor
  deriving DecidableEq, Repr

/-- The target of an `Assign` (R140). -/
inductive Target where
  | register (reg : IrReg)
  | identifier (x : Ident)
  deriving DecidableEq, Repr

/-- The external tables (R150). -/
inductive Table where
  | sz | szp
  deriving DecidableEq, Repr

/-- The primitives a `Call` names (R149, 41_alu_flags.md R202). `draw` is the model's name for the free input of 00_scope.md
R16, which the rules of 41_alu_flags.md use in inline fragments. DESIGN CHOICE, safe: log entry 12. -/
inductive Prim where
  | readMem | readMemWord | writeMem | incMem | decMem
  | getPair (p : IrPair) | setPair (p : IrPair)
  | incPair (p : CountPair) | decPair (p : CountPair)
  | addA | adcA | subA | sbcA | cpA | add16 | inc8 | dec8
  | rlcaA | rrcaA | rlaA | rraA | daa | cplA | ccf
  | push1 | push2
  | rotate (op : RotOp)
  | draw
  deriving DecidableEq, Repr

mutual

/-- The expression nodes (R140), immutable trees with structural equality (R141). -/
inductive Expr where
  | literal (v : Value)
  | identifier (x : Ident)
  | register (reg : IrReg)
  | binary (op : BinOp) (left right : Expr)
  | unary (op : UnOp) (arg : Expr)
  | logical (op : LogOp) (left right : Expr)
  | conditional (test consequent alternate : Expr)
  | index (table : Table) (key : Expr)
  | call (prim : Prim) (args : Args)
  /-- `Bit(n)`: its argument is a `Fin 8`, so no malformed term can be written (R143, 60_exceptions.md R452). -/
  | bit (n : Fin 8)
  | assign (op : AssignOp) (target : Target) (value : Expr)
  deriving DecidableEq, Repr

/-- The argument list of a `Call`. -/
inductive Args where
  | nil
  | cons (e : Expr) (rest : Args)
  deriving DecidableEq, Repr

end

mutual

/-- The statement nodes (R140). -/
inductive Stmt where
  | varDecl (name : Temp) (init : Expr)
  | exprStmt (e : Expr)
  | block (stmts : Stmts)
  /-- `If`: the empty list is the absent alternate. -/
  | ifElse (test : Expr) (consequent : Stmt) (alternate : Stmts)
  | ret (value : Option Expr)
  deriving DecidableEq, Repr

/-- A sequence of statements. -/
inductive Stmts where
  | nil
  | cons (s : Stmt) (rest : Stmts)
  deriving DecidableEq, Repr

end

/-- A fragment: the ordered sequence of statements of one instruction (00_scope.md R20). -/
abbrev Fragment := Stmts

/-- `x >> k` for an integer count: `floor(x / 2^k)` (00_scope.md R13). -/
def shiftRight (x k : Int) : Int :=
  if 0 ≤ k then intShr x k.toNat else intShl x (-k).toNat

/-- `x << k` for an integer count: `x * 2^k` (00_scope.md R13), rounded down where the count is negative. -/
def shiftLeft (x k : Int) : Int :=
  if 0 ≤ k then intShl x k.toNat else intShr x (-k).toNat

/-- A numeric literal. -/
def numLit (n : Int) : Expr := .literal (.num n)

/-- `fold` (R160 to R164): `>>` and `&` on two numeric literals become a literal; every other expression is unchanged, and no
subexpression is visited. -/
def fold : Expr → Expr
  | .binary .shr (.literal (.num x)) (.literal (.num y)) => numLit (shiftRight x y)
  | .binary .band (.literal (.num x)) (.literal (.num y)) => numLit (intAnd x y)
  | e => e

end Sys2Proof.Machine
end

