-- ==== Sys2Proof/Machine/State.lean ====
section
/-! DEFINITION. The machine state as plain data (10_state.md R30), the reasons a step can stop (60_exceptions.md R455), and the
state at launch (70_reset_and_hazards.md R480). -/

namespace Sys2Proof.Machine

/-- Why a step ends in a fault (60_exceptions.md R455). None of them is an architectural trap: none saves state and none
transfers control. -/
inductive Fault where
  /-- `stuck`: a data read outside `READABLE` or a data write outside `WRITABLE` (20_memory.md R78); the step has no successor
  and records nothing. Raised by every data access of an instruction. Safe: the model stops (92_eei_decisions.md D6). -/
  | stuck
  /-- `fault(SelfModifyingCode)`: the instruction fetched includes a byte the run has written (20_memory.md R88). Raised by the
  fetch. Safe: the model stops (D18). -/
  | selfModifyingCode (pc : Word)
  /-- `fault(PageOutOfRange)`: a rule applies `rebase` while `page >= 4` (60_exceptions.md R457). Raised by `JR`, `JR cc`, `DJNZ`,
  `CALL`, `CALL cc`, `RST` and `HALT`. Safe: the model stops (D7). -/
  | pageOutOfRange (page : Nat)
  /-- `fault(IRRange)`: the IR evaluator meets an unmasked value (40_ir_fold.md R146, R147). Raised by the IR evaluator only; no
  template's fragment raises it (R153). Safe (D22). -/
  | irRange (node : Expr)
  /-- `fault(IRUnbound)`: the IR evaluator reads an undeclared temporary (R147). Raised by the IR evaluator only. Safe (D22). -/
  | irUnbound (node : Expr)
  /-- A state whose `status` is not `running` has no further step (60_exceptions.md R455). Raised by `step`. Safe: the run is
  over. DESIGN CHOICE for the name: log entry 1. -/
  | notRunning
  deriving DecidableEq, Repr

/-- Why a step gives the bytes at `PC` no meaning. -/
inductive Refusal where
  /-- An instruction without a meaning yet, by its mnemonic in opcode_table.json. Raised by `exec` only. Safe. -/
  | notModelled (mnemonic : String)
  /-- `refuse(NotInBlock)`: the bytes at `PC` decode to no row of opcode_table.json (60_exceptions.md R456); it records `PC` and
  the bytes fetched (R455). Raised by `step`. Safe: the model says nothing of them (D3). -/
  | notInBlock (pc : Word) (bytes : List Byte)
  deriving DecidableEq, Repr

/-- The model-only field `status` (10_state.md R30, 60_exceptions.md R455). -/
inductive Status where
  | running
  | final
  | refused (r : Refusal)
  | faulted (r : Fault)
  deriving DecidableEq, Repr

/-- The outcome of an instruction or of a step, in the host's form. -/
abbrev Outcome (σ : Type) := Host.Outcome σ Fault Refusal

/-- The machine state (10_state.md R30). Pairs are not separate storage (R33). -/
structure State where
  /-- The accumulator (R32). -/
  a : Byte
  /-- The flag register (R34). -/
  f : Byte
  b : Byte
  c : Byte
  d : Byte
  e : Byte
  h : Byte
  l : Byte
  /-- The shadow set (R36). -/
  a' : Byte
  f' : Byte
  b' : Byte
  c' : Byte
  d' : Byte
  e' : Byte
  h' : Byte
  l' : Byte
  /-- The index halves (R37). -/
  ixh : Byte
  ixl : Byte
  iyh : Byte
  iyl : Byte
  /-- The stack pointer, one scalar (R38). -/
  sp : Word
  /-- The program counter, one scalar (R39). -/
  pc : Word
  /-- The interrupt-vector register (R40). -/
  i : Byte
  /-- The refresh register: written by `LD R,A`, never read (R41, 42_load.md R234). -/
  r : Byte
  /-- The interrupt flip-flops (R42): no admitted instruction writes them. -/
  iff1 : BitVec 1
  iff2 : BitVec 1
  /-- Environment scalars no admitted instruction reads or writes (R43); the spec gives them no width. DESIGN CHOICE, safe: log
  entry 7. -/
  im : Int
  eiInst : Int
  halt : Int
  tstates : Int
  /-- The code-bank number (R44); the launch puts it in `0..3`. A value of 4 or more can be held, since `rebase` faults on it
  (60_exceptions.md R457). DESIGN CHOICE, safe: log entry 8. -/
  page : Nat
  /-- The data memory `M` (20_memory.md R70), in the canonical form of `Memory.wf`. -/
  mem : List Host.Cell
  /-- The addresses the run has written (10_state.md R30, 20_memory.md R88), strictly rising. -/
  written : List Nat
  /-- The outcome mark (10_state.md R30). -/
  status : Status
  /-- The launch parameters (00_scope.md R8): no step changes them. -/
  params : Params
  /-- THE MODEL'S OWN FIELD, not the spec's: how many free values the run has drawn (00_scope.md R16). DESIGN CHOICE, safe: log
  entry 4. -/
  draws : Nat
  deriving DecidableEq, Repr

/-- The launch state of this model. The spec gives no reset value for any architectural element (70_reset_and_hazards.md R480):
every register is zero, as in the launches of 95_test_vectors.md section 4. DESIGN CHOICE, unsafe: log entries 5 to 8. `status`
and `written` are as R480 states. -/
def State.reset : State :=
  { a := 0, f := 0, b := 0, c := 0, d := 0, e := 0, h := 0, l := 0
    a' := 0, f' := 0, b' := 0, c' := 0, d' := 0, e' := 0, h' := 0, l' := 0
    ixh := 0, ixl := 0, iyh := 0, iyl := 0
    sp := 0, pc := 0, i := 0, r := 0, iff1 := 0, iff2 := 0
    im := 0, eiInst := 0, halt := 0, tstates := 0, page := 0
    mem := [], written := [], status := .running, params := Params.default, draws := 0 }

end Sys2Proof.Machine
end

