-- ==== Sys2Proof/Machine/Ops.lean ====
section
/-! DEFINITION. The named operations over memory, registers and the program counter. A data access that 20_memory.md R78 does
not admit ends the step as `stuck`, so an access takes the rest of the instruction as its last argument. The block has no
exception to take and none to return from (60_exceptions.md R453, R462, R463). -/

namespace Sys2Proof.Machine

/-! ## Memory as a list of cells -/

/-- The memory `M` (20_memory.md R70). -/
abbrev Memory := List Host.Cell

/-- What an unlisted address reads as. The spec leaves the launch bytes open (70_reset_and_hazards.md R480) and calls `00` the
default of unwritten memory (49_misc.md R431). DESIGN CHOICE, unsafe: log entry 6. -/
def Memory.unlisted : Byte := 0

/-- The byte at an address. -/
def Memory.read : Memory → Nat → Byte
  | [], _ => Memory.unlisted
  | (k, v) :: rest, a => if k = a then v else Memory.read rest a

/-- The cells of the other addresses. -/
def Memory.erase (m : Memory) (a : Nat) : Memory := m.filter fun cell => cell.1 != a

/-- A cell put before the first cell with a higher address. -/
def Memory.insert : Memory → Nat → Byte → Memory
  | [], a, v => [(a, v)]
  | (k, w) :: rest, a, v => if a < k then (a, v) :: (k, w) :: rest else (k, w) :: Memory.insert rest a v

/-- The byte at an address replaced, the canonical form kept. -/
def Memory.write (m : Memory) (a : Nat) (v : Byte) : Memory :=
  if v = Memory.unlisted then m.erase a else (m.erase a).insert a v

/-- The canonical form: addresses strictly rising and below `2^16`, no cell equal to what an unlisted address reads as. -/
def Memory.wf : Memory → Bool
  | [] => true
  | [(k, v)] => decide (k < 65536) && v != Memory.unlisted
  | (k, v) :: (k', v') :: rest => decide (k < k') && v != Memory.unlisted && Memory.wf ((k', v') :: rest)

/-- An address added to a rising list of addresses. -/
def addAddr : List Nat → Nat → List Nat
  | [], a => [a]
  | k :: rest, a => if a < k then a :: k :: rest else if a = k then k :: rest else k :: addAddr rest a

/-- The canonical form of `written`: strictly rising and below `2^16`. -/
def addrsWf : List Nat → Bool
  | [] => true
  | [k] => decide (k < 65536)
  | k :: k' :: rest => decide (k < k') && addrsWf (k' :: rest)

/-! ## Data accesses -/

/-- The address lies in the range. -/
def inRange (a : Word) (rng : AddrRange) : Bool := decide (rng.first ≤ a.toNat) && decide (a.toNat ≤ rng.last)

/-- The address is in `READABLE` (20_memory.md R78). -/
def State.canRead (s : State) (a : Word) : Bool := !(s.params.noRead.any (inRange a))

/-- The address is in `WRITABLE` (20_memory.md R78). -/
def State.canWrite (s : State) (a : Word) : Bool := !(s.params.noWrite.any (inRange a))

/-- The byte of `M` at an address, without the check of R78. -/
def State.readByte (s : State) (a : Word) : Byte := Memory.read s.mem a.toNat

/-- A byte of `M` replaced and its address added to `written` (20_memory.md R88), without the check of R78. -/
def State.writeByte (s : State) (a : Word) (v : Byte) : State :=
  { s with mem := Memory.write s.mem a.toNat v, written := addAddr s.written a.toNat }

/-- `MemRead(a, 1)` (00_scope.md R15, 20_memory.md R78). -/
def loadByte (s : State) (a : Word) (k : Byte → Outcome State) : Outcome State :=
  if s.canRead a then k (s.readByte a) else .fault .stuck

/-- `MemRead(a, 2)`, little-endian, the second address modulo `2^16` (20_memory.md R72, R74). -/
def loadWord (s : State) (a : Word) (k : Word → Outcome State) : Outcome State :=
  loadByte s a fun low => loadByte s (a + 1) fun high => k (join high low)

/-- `MemWrite(a, 1, v)` (00_scope.md R15, 20_memory.md R78). -/
def storeByte (s : State) (a : Word) (v : Byte) (k : State → Outcome State) : Outcome State :=
  if s.canWrite a then k (s.writeByte a v) else .fault .stuck

/-- `MemWrite(a, 2, v)`, little-endian, the second address modulo `2^16` (20_memory.md R72, R74). -/
def storeWord (s : State) (a : Word) (v : Word) (k : State → Outcome State) : Outcome State :=
  storeByte s a (lo v) fun s1 => storeByte s1 (a + 1) (hi v) k

/-- One read, then one write of the same byte (20_memory.md R76); `g` gives the new byte and the state with its flags. -/
def modifyByte (s : State) (a : Word) (g : State → Byte → Byte × State) (k : Byte → State → Outcome State) : Outcome State :=
  loadByte s a fun v => storeByte (g s v).2 a (g s v).1 (k (g s v).1)

/-! ## The program counter -/

/-- `nextAddress = (PC_fetch + len) mod 2^16` (10_state.md R51). -/
def State.nextAddress (s : State) (len : Nat) : Word := s.pc + BitVec.ofNat 16 len

/-- The end of a rule that does not write `pc`: `PC` becomes `nextAddress` (10_state.md R55). -/
def fallThrough (s : State) (len : Nat) : Outcome State := .next { s with pc := s.nextAddress len }

/-- `pc <- t`, after which the rule executes nothing (10_state.md R55). -/
def jump (s : State) (t : Word) : Outcome State := .next { s with pc := t }

/-- `rebase(x)` (20_memory.md R80). -/
def rebase (page : Nat) (x : Word) : Word := BitVec.ofNat 16 (x.toNat % Config.pageSize + page * Config.pageSize)

/-- `rebase(x)` where a rule applies it: `fault(PageOutOfRange)` when `page >= 4` (60_exceptions.md R457). -/
def withRebase (s : State) (x : Word) (k : Word → Outcome State) : Outcome State :=
  if s.page < 4 then k (rebase s.page x) else .fault (.pageOutOfRange s.page)

/-! ## The stack -/

/-- `push16(v)` (48_control_stack.md R405): the high byte first, each at the decremented `SP`. -/
def push16 (s : State) (v : Word) (k : State → Outcome State) : Outcome State :=
  storeByte { s with sp := s.sp - 1 } (s.sp - 1) (hi v) fun s1 =>
    storeByte { s1 with sp := s1.sp - 1 } (s1.sp - 1) (lo v) k

/-- `pop16()` (48_control_stack.md R405). -/
def pop16 (s : State) (k : Word → State → Outcome State) : Outcome State :=
  loadWord s s.sp fun v => k v { s with sp := s.sp + 2 }

/-! ## Free values -/

/-- The value of the next `draw()` (00_scope.md R16). -/
def State.drawn (s : State) : Byte := Config.freeByte s.draws

/-- The state after one `draw()`. -/
def State.afterDraw (s : State) : State := { s with draws := s.draws + 1 }

/-! ## Registers -/

/-- `reg8[r]` (30_encoding.md R103). -/
def State.reg8 (s : State) : Reg8 → Byte
  | .b => s.b
  | .c => s.c
  | .d => s.d
  | .e => s.e
  | .h => s.h
  | .l => s.l
  | .a => s.a

/-- `reg8[r] <- v`. -/
def State.setReg8 (s : State) (r : Reg8) (v : Byte) : State :=
  match r with
  | .b => { s with b := v }
  | .c => { s with c := v }
  | .d => { s with d := v }
  | .e => { s with e := v }
  | .h => { s with h := v }
  | .l => { s with l := v }
  | .a => { s with a := v }

/-- `BC`, `DE`, `HL`, `AF` (10_state.md R33). -/
def State.bc (s : State) : Word := join s.b s.c
def State.de (s : State) : Word := join s.d s.e
def State.hl (s : State) : Word := join s.h s.l
def State.af (s : State) : Word := join s.a s.f

/-- Writing a pair writes its two halves (10_state.md R33; `SET16`, 42_load.md R222). -/
def State.setBc (s : State) (v : Word) : State := { s with b := hi v, c := lo v }
def State.setDe (s : State) (v : Word) : State := { s with d := hi v, e := lo v }
def State.setHl (s : State) (v : Word) : State := { s with h := hi v, l := lo v }
def State.setAf (s : State) (v : Word) : State := { s with a := hi v, f := lo v }

/-- `XYH` or `XYL` (30_encoding.md R106, R109). -/
def State.half (s : State) : IndexReg → IndexHalf → Byte
  | .ix, .high => s.ixh
  | .ix, .low => s.ixl
  | .iy, .high => s.iyh
  | .iy, .low => s.iyl

/-- `XYH <- v` or `XYL <- v`. -/
def State.setHalf (s : State) (x : IndexReg) (u : IndexHalf) (v : Byte) : State :=
  match x, u with
  | .ix, .high => { s with ixh := v }
  | .ix, .low => { s with ixl := v }
  | .iy, .high => { s with iyh := v }
  | .iy, .low => { s with iyl := v }

/-- `XY = XYH:XYL` (10_state.md R37). -/
def State.index (s : State) (x : IndexReg) : Word := join (s.half x .high) (s.half x .low)

/-- `XYH:XYL <- v`. -/
def State.setIndex (s : State) (x : IndexReg) (v : Word) : State := (s.setHalf x .high (hi v)).setHalf x .low (lo v)

/-- `F.C` as the carry-in (10_state.md R35). -/
def State.carry (s : State) : Bool := bitOf s.f 0

end Sys2Proof.Machine
end

