-- ==== Sys2Proof/Machine/Operands.lean ====
section
/-! DEFINITION. Every operand form: register pairs by field, index-half registers, effective addresses, conditions and branch
targets (30_encoding.md R104 to R111; 20_memory.md R81). -/

namespace Sys2Proof.Machine

/-- The value of a `dd` / `ss` pair (30_encoding.md R104; `val16` of 45_arith16.md). -/
def State.pair (s : State) : RegPair → Word
  | .bc => s.bc
  | .de => s.de
  | .hl => s.hl
  | .sp => s.sp

/-- Writing a `dd` / `ss` pair: two halves, or the one scalar `SP` (10_state.md R38). -/
def State.setPair (s : State) (p : RegPair) (v : Word) : State :=
  match p with
  | .bc => s.setBc v
  | .de => s.setDe v
  | .hl => s.setHl v
  | .sp => { s with sp := v }

/-- The value of a `qq` pair (30_encoding.md R104). -/
def State.stackPair (s : State) : StackPair → Word
  | .bc => s.bc
  | .de => s.de
  | .hl => s.hl
  | .af => s.af

/-- Writing a `qq` pair (48_control_stack.md R412). -/
def State.setStackPair (s : State) (p : StackPair) (v : Word) : State :=
  match p with
  | .bc => s.setBc v
  | .de => s.setDe v
  | .hl => s.setHl v
  | .af => s.setAf v

/-- The value of a `ppx` pair beside the index register `x` (30_encoding.md R104). -/
def State.indexAddPair (s : State) (x : IndexReg) : IndexAddPair → Word
  | .bc => s.bc
  | .de => s.de
  | .xy => s.index x
  | .sp => s.sp

/-- The address in `BC` or `DE` (20_memory.md R81, field `q`). -/
def State.ptrPair (s : State) : PtrPair → Word
  | .bc => s.bc
  | .de => s.de

/-- `ρ(f)` (42_load.md R239). -/
def State.rho (s : State) (x : IndexReg) : Rho → Byte
  | .b => s.b
  | .c => s.c
  | .d => s.d
  | .e => s.e
  | .xh => s.half x .high
  | .xl => s.half x .low
  | .a => s.a

/-- `ρ(f) <- v`. -/
def State.setRho (s : State) (x : IndexReg) (t : Rho) (v : Byte) : State :=
  match t with
  | .b => { s with b := v }
  | .c => { s with c := v }
  | .d => { s with d := v }
  | .e => { s with e := v }
  | .xh => s.setHalf x .high v
  | .xl => s.setHalf x .low v
  | .a => { s with a := v }

/-- `(XY + s8(d)) mod 2^16` (20_memory.md R81). -/
def State.indexed (s : State) (x : IndexReg) (d : Byte) : Word := addDisp (s.index x) d

/-- `cond(ccc, F)` (30_encoding.md R105, 48_control_stack.md R386). -/
def condHolds (f : Byte) : Cond → Bool
  | .nz => f &&& 0x40 == 0
  | .z => f &&& 0x40 != 0
  | .nc => f &&& 0x01 == 0
  | .c => f &&& 0x01 != 0
  | .po => f &&& 0x04 == 0
  | .pe => f &&& 0x04 != 0
  | .p => f &&& 0x80 == 0
  | .m => f &&& 0x80 != 0

/-- The condition of `JR cc`, one of the first four (30_encoding.md R105, 48_control_stack.md R386). -/
def relCondHolds (f : Byte) : RelCond → Bool
  | .nz => condHolds f .nz
  | .z => condHolds f .z
  | .nc => condHolds f .nc
  | .c => condHolds f .c

/-- The target of a relative jump of length 2 (30_encoding.md R108). -/
def State.relTarget (s : State) (e : Byte) : Word := addDisp (s.nextAddress 2) e

/-- The target of `RST` (30_encoding.md R108). -/
def rstTarget (t : Fin 8) : Word := BitVec.ofNat 16 (8 * t.val)

end Sys2Proof.Machine
end

