-- ==== Sys2Proof/Machine/Flags.lean ====
section
/-! DEFINITION. The ALU and its flag computation (41_alu_flags.md). The functions on bytes compute everything but the bits 5 and
3 that depend on `UNDOC_POLICY`; `State.setFlags` adds those (R180). -/

namespace Sys2Proof.Machine

/-! ## Shared sub-functions -/

/-- `parity(v)` (R182): `PV` for an even number of 1 bits. -/
def parity (v : Byte) : Byte :=
  flagIf (((List.range 8).filter (bitOf v)).length % 2 == 0) 0x04

/-- `sz(v)`, the table `SZ_TABLE` (R181). -/
def sz (v : Byte) : Byte := (v &&& 0x80) ||| flagIf (v == 0) 0x40

/-- `szp(v)`, the table `SZP_TABLE` (R181). -/
def szp (v : Byte) : Byte := sz v ||| parity v

/-- `XY(src)` (R180): bits 5 and 3 of `src`, or of a draw. -/
def State.xyBits (s : State) (src : Byte) : Byte :=
  match s.params.undoc with
  | .z80 => src &&& 0x28
  | .draw => s.drawn &&& 0x28

/-- `F <- base | XY(src)` (R180); a draw is counted. -/
def State.setFlags (s : State) (base src : Byte) : State :=
  match s.params.undoc with
  | .z80 => { s with f := base ||| s.xyBits src }
  | .draw => { s with f := base ||| s.xyBits src, draws := s.draws + 1 }

/-- `F <- base | (draw() & mask)` under either policy: `XYdraw` with the mask `0x28` (R180), the free bits of `BIT` with the mask
`0xAC` (R199). -/
def State.setFlagsDrawn (s : State) (base mask : Byte) : State :=
  { s with f := base ||| (s.drawn &&& mask), draws := s.draws + 1 }

/-! ## 8-bit arithmetic: `(r, f)` without the bits of `XY` -/

/-- `add8` (R183). -/
def add8 (a v : Byte) (cin : Bool) : Byte × Byte :=
  let t := a.toNat + v.toNat + cin.toNat
  let r : Byte := BitVec.ofNat 8 t
  let hc := decide (a.toNat % 16 + v.toNat % 16 + cin.toNat ≥ 16)
  let ov := a.msb == v.msb && r.msb != a.msb
  (r, sz r ||| flagIf hc 0x10 ||| flagIf ov 0x04 ||| flagIf (decide (t ≥ 256)) 0x01)

/-- `sub8` (R184). -/
def sub8 (a v : Byte) (cin : Bool) : Byte × Byte :=
  let t : Int := (a.toNat : Int) - v.toNat - cin.toNat
  let r : Byte := BitVec.ofInt 8 t
  let hb := decide (((a.toNat % 16 : Nat) : Int) - (v.toNat % 16 : Nat) - cin.toNat < 0)
  let ov := a.msb != v.msb && r.msb != a.msb
  (r, sz r ||| flagIf hb 0x10 ||| flagIf ov 0x04 ||| 0x02 ||| flagIf (decide (t < 0)) 0x01)

/-- `inc8` (R186): the carry is kept. -/
def inc8 (v fin : Byte) : Byte × Byte :=
  let r := v + 1
  (r, (fin &&& 0x01) ||| sz r ||| flagIf (v &&& 0x0F == 0x0F) 0x10 ||| flagIf (v == 0x7F) 0x04)

/-- `dec8` (R187): the carry is kept. -/
def dec8 (v fin : Byte) : Byte × Byte :=
  let r := v - 1
  (r, (fin &&& 0x01) ||| sz r ||| flagIf (v &&& 0x0F == 0x00) 0x10 ||| flagIf (v == 0x80) 0x04 ||| 0x02)

/-! ## 16-bit arithmetic -/

/-- `add16` (R188): `S`, `Z` and `PV` are kept. -/
def add16 (x y : Word) (fin : Byte) : Word × Byte :=
  let t := x.toNat + y.toNat
  (BitVec.ofNat 16 t,
    (fin &&& 0xC4) ||| flagIf (decide (x.toNat % 4096 + y.toNat % 4096 ≥ 4096)) 0x10 ||| flagIf (decide (t ≥ 65536)) 0x01)

/-- `adc16` (R189): the 17-bit temporary and the five masked sub-expressions; `N` and bits 5 and 3 are 0. -/
def adc16 (x y : Word) (cin : Bool) : Word × Byte :=
  let x17 : BitVec 17 := x.setWidth 17
  let y17 : BitVec 17 := y.setWidth 17
  let t : BitVec 17 := x17 + y17 + BitVec.ofNat 17 cin.toNat
  let f : BitVec 17 :=
    (((x17 ^^^ t ^^^ y17) >>> 8) &&& 0x10)
      ||| ((t >>> 16) &&& 0x01)
      ||| ((t >>> 8) &&& 0x80)
      ||| (if t &&& 0xFFFF ≠ 0 then 0 else 0x40)
      ||| (((y17 ^^^ x17 ^^^ 0x8000) &&& (y17 ^^^ t) &&& 0x8000) >>> 13)
  (t.setWidth 16, f.setWidth 8)

/-- `sbc16` (R190): the same steps with subtraction, the constant `N`, and the overflow term of subtraction. The difference is in
`-65536 .. 65535`, so its 17 low bits tell it whole. -/
def sbc16 (x y : Word) (cin : Bool) : Word × Byte :=
  let x17 : BitVec 17 := x.setWidth 17
  let y17 : BitVec 17 := y.setWidth 17
  let t : BitVec 17 := x17 - y17 - BitVec.ofNat 17 cin.toNat
  let f : BitVec 17 :=
    (((x17 ^^^ t ^^^ y17) >>> 8) &&& 0x10)
      ||| 0x02
      ||| ((t >>> 16) &&& 0x01)
      ||| ((t >>> 8) &&& 0x80)
      ||| (if t &&& 0xFFFF ≠ 0 then 0 else 0x40)
      ||| (((y17 ^^^ x17) &&& (x17 ^^^ t) &&& 0x8000) >>> 13)
  (t.setWidth 16, f.setWidth 8)

/-! ## Logical operations, rotates and shifts -/

/-- The result and the flags of `logic(op, a, v)` (R192). -/
def logic (op : LogicOp) (a v : Byte) : Byte × Byte :=
  match op with
  | .and => (a &&& v, szp (a &&& v) ||| 0x10)
  | .xor => (a ^^^ v, szp (a ^^^ v))
  | .or => (a ||| v, szp (a ||| v))

/-- The result and the carry of a rotate or shift (R193). -/
def rotate (op : RotOp) (v : Byte) (cin : Bool) : Byte × Bool :=
  match op with
  | .rlc => ((v <<< 1) ||| flagIf (bitOf v 7) 0x01, bitOf v 7)
  | .rrc => ((v >>> 1) ||| flagIf (bitOf v 0) 0x80, bitOf v 0)
  | .rl => ((v <<< 1) ||| flagIf cin 0x01, bitOf v 7)
  | .rr => ((v >>> 1) ||| flagIf cin 0x80, bitOf v 0)
  | .sla => (v <<< 1, bitOf v 7)
  | .sra => ((v >>> 1) ||| (v &&& 0x80), bitOf v 0)
  | .sll => ((v <<< 1) ||| 0x01, bitOf v 7)
  | .srl => (v >>> 1, bitOf v 0)

/-! ## Decimal adjustment -/

/-- `daa` (R195): the new `A` and the flags without the bits of `XY`. -/
def daa (a fin : Byte) : Byte × Byte :=
  let c := bitOf fin 0
  let h := bitOf fin 4
  let n := bitOf fin 1
  let low := a.toNat % 16
  let c2 := c || decide (a.toNat > 0x99)
  let corr : Byte := flagIf (h || decide (low > 9)) 0x06 ||| flagIf c2 0x60
  let r := if n then a - corr else a + corr
  let h2 := if n then h && decide (low < 6) else decide (low > 9)
  (r, szp r ||| flagIf h2 0x10 ||| flagIf n 0x02 ||| flagIf c2 0x01)

/-! ## The primitives (R202): `A`, `F` and the draw counter -/

/-- `A <- r` and `F <- f | XY(src)`. -/
def State.setAccFlags (s : State) (r f src : Byte) : State := State.setFlags { s with a := r } f src

/-- `add_a(v)`. -/
def State.addA (s : State) (v : Byte) : State :=
  s.setAccFlags (add8 s.a v false).1 (add8 s.a v false).2 (add8 s.a v false).1

/-- `adc_a(v)`. -/
def State.adcA (s : State) (v : Byte) : State :=
  s.setAccFlags (add8 s.a v s.carry).1 (add8 s.a v s.carry).2 (add8 s.a v s.carry).1

/-- `sub_a(v)`. -/
def State.subA (s : State) (v : Byte) : State :=
  s.setAccFlags (sub8 s.a v false).1 (sub8 s.a v false).2 (sub8 s.a v false).1

/-- `sbc_a(v)`. -/
def State.sbcA (s : State) (v : Byte) : State :=
  s.setAccFlags (sub8 s.a v s.carry).1 (sub8 s.a v s.carry).2 (sub8 s.a v s.carry).1

/-- `cp_a(v)` (R185): bits 5 and 3 come from the operand, and `A` is not written. -/
def State.cpA (s : State) (v : Byte) : State := s.setFlags (sub8 s.a v false).2 v

/-- The effect of `AND`, `XOR`, `OR` (44_logical.md R300). -/
def State.logicA (s : State) (op : LogicOp) (v : Byte) : State :=
  s.setAccFlags (logic op s.a v).1 (logic op s.a v).2 (logic op s.a v).1

/-- `inc8(v)`: the result and the state with its flags. -/
def State.inc8 (s : State) (v : Byte) : Byte × State :=
  ((Machine.inc8 v s.f).1, s.setFlags (Machine.inc8 v s.f).2 (Machine.inc8 v s.f).1)

/-- `dec8(v)`: the result and the state with its flags. -/
def State.dec8 (s : State) (v : Byte) : Byte × State :=
  ((Machine.dec8 v s.f).1, s.setFlags (Machine.dec8 v s.f).2 (Machine.dec8 v s.f).1)

/-- `add16(x, y)`: the result and the state with its flags; bits 5 and 3 come from the high byte (R188). -/
def State.add16 (s : State) (x y : Word) : Word × State :=
  ((Machine.add16 x y s.f).1, s.setFlags (Machine.add16 x y s.f).2 (hi (Machine.add16 x y s.f).1))

/-- `rlc(v)` ... `srl(v)`: the result and the state with its flags `szp(r) | XY(r) | c`. -/
def State.rotate (s : State) (op : RotOp) (v : Byte) : Byte × State :=
  let rc := Machine.rotate op v s.carry
  (rc.1, s.setFlags (szp rc.1 ||| flagIf rc.2 0x01) rc.1)

/-- `rlca_a`, `rrca_a`, `rla_a`, `rra_a` (R194): the rows of R193 for `A`, with `S`, `Z` and `PV` kept. -/
def State.rotateA (s : State) (op : RotOp) : State :=
  let rc := Machine.rotate op s.a s.carry
  s.setAccFlags rc.1 ((s.f &&& 0xC4) ||| flagIf rc.2 0x01) rc.1

/-- `daa()`. -/
def State.daa (s : State) : State := s.setAccFlags (Machine.daa s.a s.f).1 (Machine.daa s.a s.f).2 (Machine.daa s.a s.f).1

/-- `cpl_a()` (R196). -/
def State.cplA (s : State) : State := s.setAccFlags (~~~s.a) ((s.f &&& 0xC5) ||| 0x12) (~~~s.a)

/-- `ccf()` (R197). -/
def State.ccf (s : State) : State :=
  s.setFlagsDrawn ((s.f &&& 0xC4) ||| flagIf s.carry 0x10 ||| flagIf (!s.carry) 0x01) 0x28

/-- `SCF`'s flag function (R198). -/
def State.scf (s : State) : State := s.setFlagsDrawn ((s.f &&& 0xC4) ||| 0x01) 0x28

/-- `NEG` (49_misc.md R426): `sub8(0, A, 0)`. -/
def State.neg (s : State) : State := s.setAccFlags (sub8 0 s.a false).1 (sub8 0 s.a false).2 (sub8 0 s.a false).1

/-! ## Bit test and special-register loads -/

/-- The flags of `BIT` that both policies fix (R199): `Z`, `H`, `N` and `C`. -/
def bitFixed (b : Fin 8) (v fin : Byte) : Byte := (fin &&& 0x01) ||| 0x10 ||| flagIf (!bitOf v b.val) 0x40

/-- `S` and `PV` of `BIT` under the policy `Z80` (R199). -/
def bitSignParity (b : Fin 8) (v : Byte) : Byte :=
  flagIf (!bitOf v b.val) 0x04 ||| flagIf (b.val == 7 && bitOf v 7) 0x80

/-- `F <- bitf(b, v, v, F)`, the register form (R199). -/
def State.bitReg (s : State) (b : Fin 8) (v : Byte) : State :=
  match s.params.undoc with
  | .z80 => { s with f := bitFixed b v s.f ||| bitSignParity b v ||| (v &&& 0x28) }
  | .draw => s.setFlagsDrawn (bitFixed b v s.f) 0xAC

/-- `F <- bitf(b, v, MEM, F)`, the memory forms (R199). -/
def State.bitMem (s : State) (b : Fin 8) (v : Byte) : State :=
  match s.params.undoc with
  | .z80 => s.setFlagsDrawn (bitFixed b v s.f ||| bitSignParity b v) 0x28
  | .draw => s.setFlagsDrawn (bitFixed b v s.f) 0xAC

/-- `irf(v, iff2, fin)` without the bits of `XY` (R200). -/
def irFlags (v : Byte) (iff2 : BitVec 1) (fin : Byte) : Byte := (fin &&& 0x01) ||| sz v ||| flagIf (iff2 == 1) 0x04

/-- `A <- v; F <- irf(v, IFF2, F)` (42_load.md R233, R234). -/
def State.loadIr (s : State) (v : Byte) : State := s.setAccFlags v (irFlags v s.iff2 s.f) v

end Sys2Proof.Machine
end

