-- ==== Sys2Proof/Machine/Arith16.lean ====
section
/-! DEFINITION. 16-bit arithmetic (45_arith16.md). A pair incremented by its two masked halves equals the pair incremented
modulo `2^16` (R320, R322). Each
definition is the meaning of one row of spec/opcode_table.json. -/

namespace Sys2Proof.Machine

/-- `ADD HL,ss` (R315). -/
def execAddHlSs (p : RegPair) (s : State) : Outcome State :=
  fallThrough ((s.add16 s.hl (s.pair p)).2.setHl (s.add16 s.hl (s.pair p)).1) 1

/-- `INC ss` (R320). -/
def execIncSs (p : RegPair) (s : State) : Outcome State :=
  fallThrough (s.setPair p (s.pair p + 1)) 1

/-- `DEC ss` (R322). -/
def execDecSs (p : RegPair) (s : State) : Outcome State :=
  fallThrough (s.setPair p (s.pair p - 1)) 1

/-- `ADC HL,ss` (R318). All of `F` is written, bits 5 and 3 as 0. -/
def execAdcHlSs (p : RegPair) (s : State) : Outcome State :=
  fallThrough { s.setHl (adc16 s.hl (s.pair p) s.carry).1 with f := (adc16 s.hl (s.pair p) s.carry).2 } 2

/-- `SBC HL,ss` (R319). All of `F` is written, bits 5 and 3 as 0. -/
def execSbcHlSs (p : RegPair) (s : State) : Outcome State :=
  fallThrough { s.setHl (sbc16 s.hl (s.pair p) s.carry).1 with f := (sbc16 s.hl (s.pair p) s.carry).2 } 2

/-- `INC XY` (R321). -/
def execIncXy (x : IndexReg) (s : State) : Outcome State :=
  fallThrough (s.setIndex x (s.index x + 1)) 2

/-- `DEC XY` (R323). -/
def execDecXy (x : IndexReg) (s : State) : Outcome State :=
  fallThrough (s.setIndex x (s.index x - 1)) 2

/-- `ADD XY,pp` (R316). -/
def execAddXyPp (x : IndexReg) (p : IndexAddPair) (s : State) : Outcome State :=
  fallThrough ((s.add16 (s.index x) (s.indexAddPair x p)).2.setIndex x (s.add16 (s.index x) (s.indexAddPair x p)).1) 2

end Sys2Proof.Machine
end

