-- ==== Sys2Proof/Machine/Arith8.lean ====
section
/-! DEFINITION. 8-bit arithmetic: `ADD ADC SUB SBC CP` in five operand forms, `INC DEC` (43_arith8.md). Each
definition is the meaning of one row of spec/opcode_table.json. -/

namespace Sys2Proof.Machine

/-- `ADD A,r` (R271). -/
def execAddR (r : Reg8) (s : State) : Outcome State :=
  fallThrough (s.addA (s.reg8 r)) 1

/-- `ADD A,n` (R271). -/
def execAddN (n : Byte) (s : State) : Outcome State :=
  fallThrough (s.addA n) 2

/-- `ADD A,(HL)` (R271). -/
def execAddHl (s : State) : Outcome State :=
  loadByte s s.hl fun v => fallThrough (s.addA v) 1

/-- `ADC A,r` (R272). -/
def execAdcR (r : Reg8) (s : State) : Outcome State :=
  fallThrough (s.adcA (s.reg8 r)) 1

/-- `ADC A,n` (R272). -/
def execAdcN (n : Byte) (s : State) : Outcome State :=
  fallThrough (s.adcA n) 2

/-- `ADC A,(HL)` (R272). -/
def execAdcHl (s : State) : Outcome State :=
  loadByte s s.hl fun v => fallThrough (s.adcA v) 1

/-- `SUB r` (R273). -/
def execSubR (r : Reg8) (s : State) : Outcome State :=
  fallThrough (s.subA (s.reg8 r)) 1

/-- `SUB n` (R273). -/
def execSubN (n : Byte) (s : State) : Outcome State :=
  fallThrough (s.subA n) 2

/-- `SUB (HL)` (R273). -/
def execSubHl (s : State) : Outcome State :=
  loadByte s s.hl fun v => fallThrough (s.subA v) 1

/-- `SBC A,r` (R274). -/
def execSbcR (r : Reg8) (s : State) : Outcome State :=
  fallThrough (s.sbcA (s.reg8 r)) 1

/-- `SBC A,n` (R274). -/
def execSbcN (n : Byte) (s : State) : Outcome State :=
  fallThrough (s.sbcA n) 2

/-- `SBC A,(HL)` (R274). -/
def execSbcHl (s : State) : Outcome State :=
  loadByte s s.hl fun v => fallThrough (s.sbcA v) 1

/-- `CP r` (R275). -/
def execCpR (r : Reg8) (s : State) : Outcome State :=
  fallThrough (s.cpA (s.reg8 r)) 1

/-- `CP n` (R275). -/
def execCpN (n : Byte) (s : State) : Outcome State :=
  fallThrough (s.cpA n) 2

/-- `CP (HL)` (R275). -/
def execCpHl (s : State) : Outcome State :=
  loadByte s s.hl fun v => fallThrough (s.cpA v) 1

/-- `INC r` (R276). -/
def execIncR (r : Reg8) (s : State) : Outcome State :=
  fallThrough ((s.inc8 (s.reg8 r)).2.setReg8 r (s.inc8 (s.reg8 r)).1) 1

/-- `INC (HL)` (R276). -/
def execIncHl (s : State) : Outcome State :=
  modifyByte s s.hl State.inc8 fun _ s1 => fallThrough s1 1

/-- `DEC r` (R277). -/
def execDecR (r : Reg8) (s : State) : Outcome State :=
  fallThrough ((s.dec8 (s.reg8 r)).2.setReg8 r (s.dec8 (s.reg8 r)).1) 1

/-- `DEC (HL)` (R277). -/
def execDecHl (s : State) : Outcome State :=
  modifyByte s s.hl State.dec8 fun _ s1 => fallThrough s1 1

/-- `ADD A,(XY+d)` (R271). -/
def execAddXd (x : IndexReg) (d : Byte) (s : State) : Outcome State :=
  loadByte s (s.indexed x d) fun v => fallThrough (s.addA v) 3

/-- `ADD A,XYH`, `ADD A,XYL` (R271). -/
def execAddXh (x : IndexReg) (u : IndexHalf) (s : State) : Outcome State :=
  fallThrough (s.addA (s.half x u)) 2

/-- `ADC A,(XY+d)` (R272). -/
def execAdcXd (x : IndexReg) (d : Byte) (s : State) : Outcome State :=
  loadByte s (s.indexed x d) fun v => fallThrough (s.adcA v) 3

/-- `ADC A,XYH`, `ADC A,XYL` (R272). -/
def execAdcXh (x : IndexReg) (u : IndexHalf) (s : State) : Outcome State :=
  fallThrough (s.adcA (s.half x u)) 2

/-- `SUB (XY+d)` (R273). -/
def execSubXd (x : IndexReg) (d : Byte) (s : State) : Outcome State :=
  loadByte s (s.indexed x d) fun v => fallThrough (s.subA v) 3

/-- `SUB XYH`, `SUB XYL` (R273). -/
def execSubXh (x : IndexReg) (u : IndexHalf) (s : State) : Outcome State :=
  fallThrough (s.subA (s.half x u)) 2

/-- `SBC A,(XY+d)` (R274). -/
def execSbcXd (x : IndexReg) (d : Byte) (s : State) : Outcome State :=
  loadByte s (s.indexed x d) fun v => fallThrough (s.sbcA v) 3

/-- `SBC A,XYH`, `SBC A,XYL` (R274). -/
def execSbcXh (x : IndexReg) (u : IndexHalf) (s : State) : Outcome State :=
  fallThrough (s.sbcA (s.half x u)) 2

/-- `CP (XY+d)` (R275). -/
def execCpXd (x : IndexReg) (d : Byte) (s : State) : Outcome State :=
  loadByte s (s.indexed x d) fun v => fallThrough (s.cpA v) 3

/-- `CP XYH`, `CP XYL` (R275). -/
def execCpXh (x : IndexReg) (u : IndexHalf) (s : State) : Outcome State :=
  fallThrough (s.cpA (s.half x u)) 2

/-- `INC (XY+d)` (R276). -/
def execIncXd (x : IndexReg) (d : Byte) (s : State) : Outcome State :=
  modifyByte s (s.indexed x d) State.inc8 fun _ s1 => fallThrough s1 3

/-- `DEC (XY+d)` (R277). -/
def execDecXd (x : IndexReg) (d : Byte) (s : State) : Outcome State :=
  modifyByte s (s.indexed x d) State.dec8 fun _ s1 => fallThrough s1 3

/-- `INC XYH`, `INC XYL` (R276). -/
def execIncXh (x : IndexReg) (u : IndexHalf) (s : State) : Outcome State :=
  fallThrough ((s.inc8 (s.half x u)).2.setHalf x u (s.inc8 (s.half x u)).1) 2

/-- `DEC XYH`, `DEC XYL` (R277). -/
def execDecXh (x : IndexReg) (u : IndexHalf) (s : State) : Outcome State :=
  fallThrough ((s.dec8 (s.half x u)).2.setHalf x u (s.dec8 (s.half x u)).1) 2

end Sys2Proof.Machine
end

