-- ==== Sys2Proof/Machine/Bit.lean ====
section
/-! DEFINITION. `BIT`, `RES` and `SET` (47_bit.md). Each
definition is the meaning of one row of spec/opcode_table.json. -/

namespace Sys2Proof.Machine

/-- The byte with bit `b` cleared (R367). -/
def resBit (b : Fin 8) (v : Byte) : Byte := v &&& (0xFF ^^^ bitMask b)

/-- The byte with bit `b` set (R368). -/
def setBit (b : Fin 8) (v : Byte) : Byte := v ||| bitMask b

/-- `BIT b,r` (R366). -/
def execBitR (b : Fin 8) (r : Reg8) (s : State) : Outcome State :=
  fallThrough (s.bitReg b (s.reg8 r)) 2

/-- `BIT b,(HL)` (R366). -/
def execBitHl (b : Fin 8) (s : State) : Outcome State :=
  loadByte s s.hl fun v => fallThrough (s.bitMem b v) 2

/-- `RES b,r` (R367). -/
def execResR (b : Fin 8) (r : Reg8) (s : State) : Outcome State :=
  fallThrough (s.setReg8 r (resBit b (s.reg8 r))) 2

/-- `RES b,(HL)` (R367). -/
def execResHl (b : Fin 8) (s : State) : Outcome State :=
  modifyByte s s.hl (fun s v => (resBit b v, s)) fun _ s1 => fallThrough s1 2

/-- `SET b,r` (R368). -/
def execSetR (b : Fin 8) (r : Reg8) (s : State) : Outcome State :=
  fallThrough (s.setReg8 r (setBit b (s.reg8 r))) 2

/-- `SET b,(HL)` (R368). -/
def execSetHl (b : Fin 8) (s : State) : Outcome State :=
  modifyByte s s.hl (fun s v => (setBit b v, s)) fun _ s1 => fallThrough s1 2

/-- `BIT b,(XY+d)` (R366). -/
def execBitXd (b : Fin 8) (x : IndexReg) (d : Byte) (s : State) : Outcome State :=
  loadByte s (s.indexed x d) fun v => fallThrough (s.bitMem b v) 4

/-- `RES b,(XY+d)` (R367). -/
def execResXd (b : Fin 8) (x : IndexReg) (d : Byte) (s : State) : Outcome State :=
  modifyByte s (s.indexed x d) (fun s v => (resBit b v, s)) fun _ s1 => fallThrough s1 4

/-- `SET b,(XY+d)` (R368). -/
def execSetXd (b : Fin 8) (x : IndexReg) (d : Byte) (s : State) : Outcome State :=
  modifyByte s (s.indexed x d) (fun s v => (setBit b v, s)) fun _ s1 => fallThrough s1 4

end Sys2Proof.Machine
end

