-- ==== Sys2Proof/Machine/Control.lean ====
section
/-! DEFINITION. Control transfer: jumps, calls, returns and restarts (48_control_stack.md R385 to R400). Each
definition is the meaning of one row of spec/opcode_table.json. -/

namespace Sys2Proof.Machine

/-- The taken path of `CALL`, `CALL cc` and `RST` (R395, R396, R399): the re-based return address is pushed, `rebase` coming before
the stack writes, and `PC` becomes the target, which is not re-based. -/
def callTo (s : State) (len : Nat) (target : Word) : Outcome State :=
  withRebase s (s.nextAddress len) fun ret => push16 s ret fun s1 => jump s1 target

/-- `JP nn` (R388). -/
def execJpNn (nn : Word) (s : State) : Outcome State :=
  jump s nn

/-- `JP cc,nn` (R389). -/
def execJpCc (cc : Cond) (nn : Word) (s : State) : Outcome State :=
  if condHolds s.f cc then jump s nn else fallThrough s 3

/-- `JP (HL)` (R390). -/
def execJpHl (s : State) : Outcome State :=
  jump s s.hl

/-- `JR e` (R392). -/
def execJrE (e : Byte) (s : State) : Outcome State :=
  withRebase s (s.relTarget e) fun t => jump s t

/-- `JR cc,e` (R393). -/
def execJrCc (cc : RelCond) (e : Byte) (s : State) : Outcome State :=
  if relCondHolds s.f cc then withRebase s (s.relTarget e) fun t => jump s t else fallThrough s 2

/-- `DJNZ e` (R394). A fault writes nothing, so `B` keeps its value then (60_exceptions.md R455). -/
def execDjnz (e : Byte) (s : State) : Outcome State :=
  if s.b - 1 ≠ 0 then withRebase s (s.relTarget e) fun t => jump { s with b := s.b - 1 } t
  else fallThrough { s with b := s.b - 1 } 2

/-- `CALL nn` (R395). -/
def execCallNn (nn : Word) (s : State) : Outcome State :=
  callTo s 3 nn

/-- `CALL cc,nn` (R396). -/
def execCallCc (cc : Cond) (nn : Word) (s : State) : Outcome State :=
  if condHolds s.f cc then callTo s 3 nn else fallThrough s 3

/-- `RET` (R397). Nothing is re-based. -/
def execRet (s : State) : Outcome State :=
  pop16 s fun v s1 => jump s1 v

/-- `RET cc` (R398). -/
def execRetCc (cc : Cond) (s : State) : Outcome State :=
  if condHolds s.f cc then pop16 s fun v s1 => jump s1 v else fallThrough s 1

/-- `RST p`, the target being `8 * t` (R399). The target is fixed. -/
def execRst (t : Fin 8) (s : State) : Outcome State :=
  callTo s 1 (rstTarget t)

/-- `JP (XY)` (R391). -/
def execJpXy (x : IndexReg) (s : State) : Outcome State :=
  jump s (s.index x)

end Sys2Proof.Machine
end

