-- ==== Sys2Proof/Machine/Load.lean ====
section
/-! DEFINITION. The load instructions (42_load.md). Each
definition is the meaning of one row of spec/opcode_table.json. -/

namespace Sys2Proof.Machine

/-- `LD r,r'` (R221). -/
def execLdRR (dst : Reg8) (src : Reg8) (s : State) : Outcome State :=
  fallThrough (s.setReg8 dst (s.reg8 src)) 1

/-- `LD r,n` (R223). -/
def execLdRN (dst : Reg8) (n : Byte) (s : State) : Outcome State :=
  fallThrough (s.setReg8 dst n) 2

/-- `LD r,(HL)` (R224). -/
def execLdRHl (dst : Reg8) (s : State) : Outcome State :=
  loadByte s s.hl fun v => fallThrough (s.setReg8 dst v) 1

/-- `LD (HL),r` (R225). -/
def execLdHlR (r : Reg8) (s : State) : Outcome State :=
  storeByte s s.hl (s.reg8 r) fun s1 => fallThrough s1 1

/-- `LD (HL),n` (R226). -/
def execLdHlN (n : Byte) (s : State) : Outcome State :=
  storeByte s s.hl n fun s1 => fallThrough s1 2

/-- `LD A,(BC)`, `LD A,(DE)` (R230). -/
def execLdAPtr (q : PtrPair) (s : State) : Outcome State :=
  loadByte s (s.ptrPair q) fun v => fallThrough { s with a := v } 1

/-- `LD A,(nn)` (R231). -/
def execLdAAbs (nn : Word) (s : State) : Outcome State :=
  loadByte s nn fun v => fallThrough { s with a := v } 3

/-- `LD (BC),A`, `LD (DE),A` (R236). -/
def execLdPtrA (q : PtrPair) (s : State) : Outcome State :=
  storeByte s (s.ptrPair q) s.a fun s1 => fallThrough s1 1

/-- `LD (nn),A` (R237). -/
def execLdAbsA (nn : Word) (s : State) : Outcome State :=
  storeByte s nn s.a fun s1 => fallThrough s1 3

/-- `LD dd,nn` (R241). -/
def execLdDdNn (p : RegPair) (nn : Word) (s : State) : Outcome State :=
  fallThrough (s.setPair p nn) 3

/-- `LD HL,(nn)` (R243). Little-endian: 90_conflicts.md C1. -/
def execLdHlAbs (nn : Word) (s : State) : Outcome State :=
  loadWord s nn fun v => fallThrough (s.setHl v) 3

/-- `LD (nn),HL` (R246). -/
def execLdAbsHl (nn : Word) (s : State) : Outcome State :=
  storeWord s nn s.hl fun s1 => fallThrough s1 3

/-- `LD SP,HL` (R249). -/
def execLdSpHl (s : State) : Outcome State :=
  fallThrough { s with sp := s.hl } 1

/-- `LD dd,(nn)`, the `ED` form (R244). -/
def execLdDdAbs (p : RegPair) (nn : Word) (s : State) : Outcome State :=
  loadWord s nn fun v => fallThrough (s.setPair p v) 4

/-- `LD (nn),dd`, the `ED` form (R247). -/
def execLdAbsDd (p : RegPair) (nn : Word) (s : State) : Outcome State :=
  storeWord s nn (s.pair p) fun s1 => fallThrough s1 4

/-- `LD I,A` (R232). -/
def execLdIA (s : State) : Outcome State :=
  fallThrough { s with i := s.a } 2

/-- `LD R,A`, `R` the refresh register (R235). -/
def execLdRefreshA (s : State) : Outcome State :=
  fallThrough { s with r := s.a } 2

/-- `LD A,I` (R233). -/
def execLdAI (s : State) : Outcome State :=
  fallThrough (s.loadIr s.i) 2

/-- `LD A,R`, `R` the refresh register (R234). The value is a draw, and `R` is not read. -/
def execLdARefresh (s : State) : Outcome State :=
  fallThrough (s.afterDraw.loadIr s.drawn) 2

/-- `LD XY,nn` (R242). -/
def execLdXyNn (x : IndexReg) (nn : Word) (s : State) : Outcome State :=
  fallThrough (s.setIndex x nn) 4

/-- `LD XY,(nn)` (R245). -/
def execLdXyAbs (x : IndexReg) (nn : Word) (s : State) : Outcome State :=
  loadWord s nn fun v => fallThrough (s.setIndex x v) 4

/-- `LD (nn),XY` (R248). -/
def execLdAbsXy (x : IndexReg) (nn : Word) (s : State) : Outcome State :=
  storeWord s nn (s.index x) fun s1 => fallThrough s1 4

/-- `LD SP,XY` (R250). -/
def execLdSpXy (x : IndexReg) (s : State) : Outcome State :=
  fallThrough { s with sp := s.index x } 2

/-- `LD r,(XY+d)` (R227). -/
def execLdRXd (r : Reg8) (x : IndexReg) (d : Byte) (s : State) : Outcome State :=
  loadByte s (s.indexed x d) fun v => fallThrough (s.setReg8 r v) 3

/-- `LD (XY+d),r` (R228). -/
def execLdXdR (x : IndexReg) (d : Byte) (r : Reg8) (s : State) : Outcome State :=
  storeByte s (s.indexed x d) (s.reg8 r) fun s1 => fallThrough s1 3

/-- `LD (XY+d),n` (R229). -/
def execLdXdN (x : IndexReg) (d : Byte) (n : Byte) (s : State) : Outcome State :=
  storeByte s (s.indexed x d) n fun s1 => fallThrough s1 4

/-- `LD ρ,ρ'`, the copy that involves an index half (the table's row `LD`) (R239). -/
def execLdRho (x : IndexReg) (t : Rho) (sr : Rho) (s : State) : Outcome State :=
  fallThrough (s.setRho x t (s.rho x sr)) 2

/-- `LD XYH,n`, `LD XYL,n` (R240). -/
def execLdXhN (x : IndexReg) (u : IndexHalf) (n : Byte) (s : State) : Outcome State :=
  fallThrough (s.setHalf x u n) 3

end Sys2Proof.Machine
end

