-- ==== Sys2Proof/Machine/Logical.lean ====
section
/-! DEFINITION. `AND XOR OR` in five operand forms (44_logical.md). Each
definition is the meaning of one row of spec/opcode_table.json. -/

namespace Sys2Proof.Machine

/-- `AND r` (R301). -/
def execAndR (r : Reg8) (s : State) : Outcome State :=
  fallThrough (s.logicA .and (s.reg8 r)) 1

/-- `AND n` (R301). -/
def execAndN (n : Byte) (s : State) : Outcome State :=
  fallThrough (s.logicA .and n) 2

/-- `AND (HL)` (R301). -/
def execAndHl (s : State) : Outcome State :=
  loadByte s s.hl fun v => fallThrough (s.logicA .and v) 1

/-- `XOR r` (R302). -/
def execXorR (r : Reg8) (s : State) : Outcome State :=
  fallThrough (s.logicA .xor (s.reg8 r)) 1

/-- `XOR n` (R302). -/
def execXorN (n : Byte) (s : State) : Outcome State :=
  fallThrough (s.logicA .xor n) 2

/-- `XOR (HL)` (R302). -/
def execXorHl (s : State) : Outcome State :=
  loadByte s s.hl fun v => fallThrough (s.logicA .xor v) 1

/-- `OR r` (R303). -/
def execOrR (r : Reg8) (s : State) : Outcome State :=
  fallThrough (s.logicA .or (s.reg8 r)) 1

/-- `OR n` (R303). -/
def execOrN (n : Byte) (s : State) : Outcome State :=
  fallThrough (s.logicA .or n) 2

/-- `OR (HL)` (R303). -/
def execOrHl (s : State) : Outcome State :=
  loadByte s s.hl fun v => fallThrough (s.logicA .or v) 1

/-- `AND (XY+d)` (R301). -/
def execAndXd (x : IndexReg) (d : Byte) (s : State) : Outcome State :=
  loadByte s (s.indexed x d) fun v => fallThrough (s.logicA .and v) 3

/-- `AND XYH`, `AND XYL` (R301). -/
def execAndXh (x : IndexReg) (u : IndexHalf) (s : State) : Outcome State :=
  fallThrough (s.logicA .and (s.half x u)) 2

/-- `XOR (XY+d)` (R302). -/
def execXorXd (x : IndexReg) (d : Byte) (s : State) : Outcome State :=
  loadByte s (s.indexed x d) fun v => fallThrough (s.logicA .xor v) 3

/-- `XOR XYH`, `XOR XYL` (R302). -/
def execXorXh (x : IndexReg) (u : IndexHalf) (s : State) : Outcome State :=
  fallThrough (s.logicA .xor (s.half x u)) 2

/-- `OR (XY+d)` (R303). -/
def execOrXd (x : IndexReg) (d : Byte) (s : State) : Outcome State :=
  loadByte s (s.indexed x d) fun v => fallThrough (s.logicA .or v) 3

/-- `OR XYH`, `OR XYL` (R303). -/
def execOrXh (x : IndexReg) (u : IndexHalf) (s : State) : Outcome State :=
  fallThrough (s.logicA .or (s.half x u)) 2

end Sys2Proof.Machine
end

