-- ==== Sys2Proof/Machine/Misc.lean ====
section
/-! DEFINITION. The miscellaneous ALU and control instructions (49_misc.md). Each
definition is the meaning of one row of spec/opcode_table.json. -/

namespace Sys2Proof.Machine

/-- `NOP` (R431). -/
def execNop (s : State) : Outcome State :=
  fallThrough s 1

/-- `DAA` (R427). -/
def execDaa (s : State) : Outcome State :=
  fallThrough s.daa 1

/-- `CPL` (R428). -/
def execCpl (s : State) : Outcome State :=
  fallThrough s.cplA 1

/-- `SCF` (R429). -/
def execScf (s : State) : Outcome State :=
  fallThrough s.scf 1

/-- `CCF` (R430). -/
def execCcf (s : State) : Outcome State :=
  fallThrough s.ccf 1

/-- `HALT` (R434). A `HALT` that would leave `PC` as it is ends the run: `status` becomes `final` and
nothing else changes (70_reset_and_hazards.md R486). DESIGN CHOICE, safe: log entry 2. -/
def execHalt (s : State) : Outcome State :=
  withRebase s (s.nextAddress 1 - 1) fun t =>
    if t = s.pc ∧ s.status = .running then .next { s with status := .final } else jump s t

/-- `NEG` (R426). -/
def execNeg (s : State) : Outcome State :=
  fallThrough s.neg 2

end Sys2Proof.Machine
end

