-- ==== Sys2Proof/Machine/Rotate.lean ====
section
/-! DEFINITION. Rotates and shifts: the accumulator rotates and the eight CB mnemonics in four operand forms (46_rotate_shift.md
R340). Each
definition is the meaning of one row of spec/opcode_table.json. -/

namespace Sys2Proof.Machine

/-- `RLCA` (R341). -/
def execRlca (s : State) : Outcome State :=
  fallThrough (s.rotateA .rlc) 1

/-- `RRCA` (R342). -/
def execRrca (s : State) : Outcome State :=
  fallThrough (s.rotateA .rrc) 1

/-- `RLA` (R343). -/
def execRla (s : State) : Outcome State :=
  fallThrough (s.rotateA .rl) 1

/-- `RRA` (R344). -/
def execRra (s : State) : Outcome State :=
  fallThrough (s.rotateA .rr) 1

/-- `RLC r` (R345). -/
def execRlcR (r : Reg8) (s : State) : Outcome State :=
  fallThrough ((s.rotate .rlc (s.reg8 r)).2.setReg8 r (s.rotate .rlc (s.reg8 r)).1) 2

/-- `RLC (HL)` (R345). -/
def execRlcHl (s : State) : Outcome State :=
  modifyByte s s.hl (fun s v => s.rotate .rlc v) fun _ s1 => fallThrough s1 2

/-- `RRC r` (R346). -/
def execRrcR (r : Reg8) (s : State) : Outcome State :=
  fallThrough ((s.rotate .rrc (s.reg8 r)).2.setReg8 r (s.rotate .rrc (s.reg8 r)).1) 2

/-- `RRC (HL)` (R346). -/
def execRrcHl (s : State) : Outcome State :=
  modifyByte s s.hl (fun s v => s.rotate .rrc v) fun _ s1 => fallThrough s1 2

/-- `RL r` (R347). -/
def execRlR (r : Reg8) (s : State) : Outcome State :=
  fallThrough ((s.rotate .rl (s.reg8 r)).2.setReg8 r (s.rotate .rl (s.reg8 r)).1) 2

/-- `RL (HL)` (R347). -/
def execRlHl (s : State) : Outcome State :=
  modifyByte s s.hl (fun s v => s.rotate .rl v) fun _ s1 => fallThrough s1 2

/-- `RR r` (R348). -/
def execRrR (r : Reg8) (s : State) : Outcome State :=
  fallThrough ((s.rotate .rr (s.reg8 r)).2.setReg8 r (s.rotate .rr (s.reg8 r)).1) 2

/-- `RR (HL)` (R348). -/
def execRrHl (s : State) : Outcome State :=
  modifyByte s s.hl (fun s v => s.rotate .rr v) fun _ s1 => fallThrough s1 2

/-- `SLA r` (R349). -/
def execSlaR (r : Reg8) (s : State) : Outcome State :=
  fallThrough ((s.rotate .sla (s.reg8 r)).2.setReg8 r (s.rotate .sla (s.reg8 r)).1) 2

/-- `SLA (HL)` (R349). -/
def execSlaHl (s : State) : Outcome State :=
  modifyByte s s.hl (fun s v => s.rotate .sla v) fun _ s1 => fallThrough s1 2

/-- `SRA r` (R350). -/
def execSraR (r : Reg8) (s : State) : Outcome State :=
  fallThrough ((s.rotate .sra (s.reg8 r)).2.setReg8 r (s.rotate .sra (s.reg8 r)).1) 2

/-- `SRA (HL)` (R350). -/
def execSraHl (s : State) : Outcome State :=
  modifyByte s s.hl (fun s v => s.rotate .sra v) fun _ s1 => fallThrough s1 2

/-- `SLL r` (R351). -/
def execSllR (r : Reg8) (s : State) : Outcome State :=
  fallThrough ((s.rotate .sll (s.reg8 r)).2.setReg8 r (s.rotate .sll (s.reg8 r)).1) 2

/-- `SLL (HL)` (R351). -/
def execSllHl (s : State) : Outcome State :=
  modifyByte s s.hl (fun s v => s.rotate .sll v) fun _ s1 => fallThrough s1 2

/-- `SRL r` (R352). -/
def execSrlR (r : Reg8) (s : State) : Outcome State :=
  fallThrough ((s.rotate .srl (s.reg8 r)).2.setReg8 r (s.rotate .srl (s.reg8 r)).1) 2

/-- `SRL (HL)` (R352). -/
def execSrlHl (s : State) : Outcome State :=
  modifyByte s s.hl (fun s v => s.rotate .srl v) fun _ s1 => fallThrough s1 2

/-- `RLC (XY+d)` (R345). -/
def execRlcXd (x : IndexReg) (d : Byte) (s : State) : Outcome State :=
  modifyByte s (s.indexed x d) (fun s v => s.rotate .rlc v) fun _ s1 => fallThrough s1 4

/-- `RLC (XY+d),r` (R345). -/
def execRlcXdR (x : IndexReg) (d : Byte) (r : Reg8) (s : State) : Outcome State :=
  modifyByte s (s.indexed x d) (fun s v => s.rotate .rlc v) fun v s1 => fallThrough (s1.setReg8 r v) 4

/-- `RRC (XY+d)` (R346). -/
def execRrcXd (x : IndexReg) (d : Byte) (s : State) : Outcome State :=
  modifyByte s (s.indexed x d) (fun s v => s.rotate .rrc v) fun _ s1 => fallThrough s1 4

/-- `RRC (XY+d),r` (R346). -/
def execRrcXdR (x : IndexReg) (d : Byte) (r : Reg8) (s : State) : Outcome State :=
  modifyByte s (s.indexed x d) (fun s v => s.rotate .rrc v) fun v s1 => fallThrough (s1.setReg8 r v) 4

/-- `RL (XY+d)` (R347). -/
def execRlXd (x : IndexReg) (d : Byte) (s : State) : Outcome State :=
  modifyByte s (s.indexed x d) (fun s v => s.rotate .rl v) fun _ s1 => fallThrough s1 4

/-- `RL (XY+d),r` (R347). -/
def execRlXdR (x : IndexReg) (d : Byte) (r : Reg8) (s : State) : Outcome State :=
  modifyByte s (s.indexed x d) (fun s v => s.rotate .rl v) fun v s1 => fallThrough (s1.setReg8 r v) 4

/-- `RR (XY+d)` (R348). -/
def execRrXd (x : IndexReg) (d : Byte) (s : State) : Outcome State :=
  modifyByte s (s.indexed x d) (fun s v => s.rotate .rr v) fun _ s1 => fallThrough s1 4

/-- `RR (XY+d),r` (R348). -/
def execRrXdR (x : IndexReg) (d : Byte) (r : Reg8) (s : State) : Outcome State :=
  modifyByte s (s.indexed x d) (fun s v => s.rotate .rr v) fun v s1 => fallThrough (s1.setReg8 r v) 4

/-- `SLA (XY+d)` (R349). -/
def execSlaXd (x : IndexReg) (d : Byte) (s : State) : Outcome State :=
  modifyByte s (s.indexed x d) (fun s v => s.rotate .sla v) fun _ s1 => fallThrough s1 4

/-- `SLA (XY+d),r` (R349). -/
def execSlaXdR (x : IndexReg) (d : Byte) (r : Reg8) (s : State) : Outcome State :=
  modifyByte s (s.indexed x d) (fun s v => s.rotate .sla v) fun v s1 => fallThrough (s1.setReg8 r v) 4

/-- `SRA (XY+d)` (R350). -/
def execSraXd (x : IndexReg) (d : Byte) (s : State) : Outcome State :=
  modifyByte s (s.indexed x d) (fun s v => s.rotate .sra v) fun _ s1 => fallThrough s1 4

/-- `SRA (XY+d),r` (R350). -/
def execSraXdR (x : IndexReg) (d : Byte) (r : Reg8) (s : State) : Outcome State :=
  modifyByte s (s.indexed x d) (fun s v => s.rotate .sra v) fun v s1 => fallThrough (s1.setReg8 r v) 4

/-- `SLL (XY+d)` (R351). -/
def execSllXd (x : IndexReg) (d : Byte) (s : State) : Outcome State :=
  modifyByte s (s.indexed x d) (fun s v => s.rotate .sll v) fun _ s1 => fallThrough s1 4

/-- `SLL (XY+d),r` (R351). -/
def execSllXdR (x : IndexReg) (d : Byte) (r : Reg8) (s : State) : Outcome State :=
  modifyByte s (s.indexed x d) (fun s v => s.rotate .sll v) fun v s1 => fallThrough (s1.setReg8 r v) 4

/-- `SRL (XY+d)` (R352). -/
def execSrlXd (x : IndexReg) (d : Byte) (s : State) : Outcome State :=
  modifyByte s (s.indexed x d) (fun s v => s.rotate .srl v) fun _ s1 => fallThrough s1 4

/-- `SRL (XY+d),r` (R352). -/
def execSrlXdR (x : IndexReg) (d : Byte) (r : Reg8) (s : State) : Outcome State :=
  modifyByte s (s.indexed x d) (fun s v => s.rotate .srl v) fun v s1 => fallThrough (s1.setReg8 r v) 4

end Sys2Proof.Machine
end

