-- ==== Sys2Proof/Machine/Stack.lean ====
section
/-! DEFINITION. Stack and exchange instructions (48_control_stack.md R405 to R418). Each
definition is the meaning of one row of spec/opcode_table.json. -/

namespace Sys2Proof.Machine

/-- The exchange of a 16-bit register with the top of the stack (R417): each byte read once and written once, `SP` unchanged. -/
def exchangeTop (s : State) (v : Word) (k : Word → State → Outcome State) : Outcome State :=
  loadWord s s.sp fun top => storeWord s s.sp v fun s1 => k top s1

/-- `PUSH qq` (R410). -/
def execPushQq (p : StackPair) (s : State) : Outcome State :=
  push16 s (s.stackPair p) fun s1 => fallThrough s1 1

/-- `POP qq` (R412). -/
def execPopQq (p : StackPair) (s : State) : Outcome State :=
  pop16 s fun v s1 => fallThrough (s1.setStackPair p v) 1

/-- `EX DE,HL` (R416). -/
def execExDeHl (s : State) : Outcome State :=
  fallThrough { s with d := s.h, e := s.l, h := s.d, l := s.e } 1

/-- `EX AF,AF'` (R414). -/
def execExAfAf (s : State) : Outcome State :=
  fallThrough { s with a := s.a', f := s.f', a' := s.a, f' := s.f } 1

/-- `EXX` (R415). -/
def execExx (s : State) : Outcome State :=
  fallThrough { s with
    b := s.b', c := s.c', d := s.d', e := s.e', h := s.h', l := s.l'
    b' := s.b, c' := s.c, d' := s.d, e' := s.e, h' := s.h, l' := s.l } 1

/-- `EX (SP),HL` (R417). -/
def execExSpHl (s : State) : Outcome State :=
  exchangeTop s s.hl fun v s1 => fallThrough (s1.setHl v) 1

/-- `PUSH XY` (R411). -/
def execPushXy (x : IndexReg) (s : State) : Outcome State :=
  push16 s (s.index x) fun s1 => fallThrough s1 2

/-- `POP XY` (R413). -/
def execPopXy (x : IndexReg) (s : State) : Outcome State :=
  pop16 s fun v s1 => fallThrough (s1.setIndex x v) 2

/-- `EX (SP),XY` (R418). -/
def execExSpXy (x : IndexReg) (s : State) : Outcome State :=
  exchangeTop s (s.index x) fun v s1 => fallThrough (s1.setIndex x v) 2

end Sys2Proof.Machine
end

