-- ==== Sys2Proof/Machine/Dispatch.lean ====
section
/-! DEFINITION. The dispatch: one arm per constructor of `Instr`, each a call of that instruction's meaning. -/

namespace Sys2Proof.Machine

open Sys2Proof

def exec (i : Instr) (s : State) : Host.Outcome State Fault Refusal :=
  match i with
  | .nop => Sys2Proof.Machine.execNop s
  | .ldRR dst src => Sys2Proof.Machine.execLdRR dst src s
  | .ldRN dst n => Sys2Proof.Machine.execLdRN dst n s
  | .ldRHl dst => Sys2Proof.Machine.execLdRHl dst s
  | .ldHlR r => Sys2Proof.Machine.execLdHlR r s
  | .ldHlN n => Sys2Proof.Machine.execLdHlN n s
  | .ldAPtr q => Sys2Proof.Machine.execLdAPtr q s
  | .ldAAbs nn => Sys2Proof.Machine.execLdAAbs nn s
  | .ldPtrA q => Sys2Proof.Machine.execLdPtrA q s
  | .ldAbsA nn => Sys2Proof.Machine.execLdAbsA nn s
  | .ldDdNn p nn => Sys2Proof.Machine.execLdDdNn p nn s
  | .ldHlAbs nn => Sys2Proof.Machine.execLdHlAbs nn s
  | .ldAbsHl nn => Sys2Proof.Machine.execLdAbsHl nn s
  | .ldSpHl => Sys2Proof.Machine.execLdSpHl s
  | .pushQq p => Sys2Proof.Machine.execPushQq p s
  | .popQq p => Sys2Proof.Machine.execPopQq p s
  | .exDeHl => Sys2Proof.Machine.execExDeHl s
  | .exAfAf => Sys2Proof.Machine.execExAfAf s
  | .exx => Sys2Proof.Machine.execExx s
  | .exSpHl => Sys2Proof.Machine.execExSpHl s
  | .addR r => Sys2Proof.Machine.execAddR r s
  | .addN n => Sys2Proof.Machine.execAddN n s
  | .addHl => Sys2Proof.Machine.execAddHl s
  | .adcR r => Sys2Proof.Machine.execAdcR r s
  | .adcN n => Sys2Proof.Machine.execAdcN n s
  | .adcHl => Sys2Proof.Machine.execAdcHl s
  | .subR r => Sys2Proof.Machine.execSubR r s
  | .subN n => Sys2Proof.Machine.execSubN n s
  | .subHl => Sys2Proof.Machine.execSubHl s
  | .sbcR r => Sys2Proof.Machine.execSbcR r s
  | .sbcN n => Sys2Proof.Machine.execSbcN n s
  | .sbcHl => Sys2Proof.Machine.execSbcHl s
  | .andR r => Sys2Proof.Machine.execAndR r s
  | .andN n => Sys2Proof.Machine.execAndN n s
  | .andHl => Sys2Proof.Machine.execAndHl s
  | .xorR r => Sys2Proof.Machine.execXorR r s
  | .xorN n => Sys2Proof.Machine.execXorN n s
  | .xorHl => Sys2Proof.Machine.execXorHl s
  | .orR r => Sys2Proof.Machine.execOrR r s
  | .orN n => Sys2Proof.Machine.execOrN n s
  | .orHl => Sys2Proof.Machine.execOrHl s
  | .cpR r => Sys2Proof.Machine.execCpR r s
  | .cpN n => Sys2Proof.Machine.execCpN n s
  | .cpHl => Sys2Proof.Machine.execCpHl s
  | .incR r => Sys2Proof.Machine.execIncR r s
  | .incHl => Sys2Proof.Machine.execIncHl s
  | .decR r => Sys2Proof.Machine.execDecR r s
  | .decHl => Sys2Proof.Machine.execDecHl s
  | .addHlSs p => Sys2Proof.Machine.execAddHlSs p s
  | .incSs p => Sys2Proof.Machine.execIncSs p s
  | .decSs p => Sys2Proof.Machine.execDecSs p s
  | .rlca => Sys2Proof.Machine.execRlca s
  | .rrca => Sys2Proof.Machine.execRrca s
  | .rla => Sys2Proof.Machine.execRla s
  | .rra => Sys2Proof.Machine.execRra s
  | .daa => Sys2Proof.Machine.execDaa s
  | .cpl => Sys2Proof.Machine.execCpl s
  | .scf => Sys2Proof.Machine.execScf s
  | .ccf => Sys2Proof.Machine.execCcf s
  | .halt => Sys2Proof.Machine.execHalt s
  | .jpNn nn => Sys2Proof.Machine.execJpNn nn s
  | .jpCc cc nn => Sys2Proof.Machine.execJpCc cc nn s
  | .jpHl => Sys2Proof.Machine.execJpHl s
  | .jrE e => Sys2Proof.Machine.execJrE e s
  | .jrCc cc e => Sys2Proof.Machine.execJrCc cc e s
  | .djnz e => Sys2Proof.Machine.execDjnz e s
  | .callNn nn => Sys2Proof.Machine.execCallNn nn s
  | .callCc cc nn => Sys2Proof.Machine.execCallCc cc nn s
  | .ret => Sys2Proof.Machine.execRet s
  | .retCc cc => Sys2Proof.Machine.execRetCc cc s
  | .rst t => Sys2Proof.Machine.execRst t s
  | .rlcR r => Sys2Proof.Machine.execRlcR r s
  | .rlcHl => Sys2Proof.Machine.execRlcHl s
  | .rrcR r => Sys2Proof.Machine.execRrcR r s
  | .rrcHl => Sys2Proof.Machine.execRrcHl s
  | .rlR r => Sys2Proof.Machine.execRlR r s
  | .rlHl => Sys2Proof.Machine.execRlHl s
  | .rrR r => Sys2Proof.Machine.execRrR r s
  | .rrHl => Sys2Proof.Machine.execRrHl s
  | .slaR r => Sys2Proof.Machine.execSlaR r s
  | .slaHl => Sys2Proof.Machine.execSlaHl s
  | .sraR r => Sys2Proof.Machine.execSraR r s
  | .sraHl => Sys2Proof.Machine.execSraHl s
  | .sllR r => Sys2Proof.Machine.execSllR r s
  | .sllHl => Sys2Proof.Machine.execSllHl s
  | .srlR r => Sys2Proof.Machine.execSrlR r s
  | .srlHl => Sys2Proof.Machine.execSrlHl s
  | .bitR b r => Sys2Proof.Machine.execBitR b r s
  | .bitHl b => Sys2Proof.Machine.execBitHl b s
  | .resR b r => Sys2Proof.Machine.execResR b r s
  | .resHl b => Sys2Proof.Machine.execResHl b s
  | .setR b r => Sys2Proof.Machine.execSetR b r s
  | .setHl b => Sys2Proof.Machine.execSetHl b s
  | .ldDdAbs p nn => Sys2Proof.Machine.execLdDdAbs p nn s
  | .ldAbsDd p nn => Sys2Proof.Machine.execLdAbsDd p nn s
  | .adcHlSs p => Sys2Proof.Machine.execAdcHlSs p s
  | .sbcHlSs p => Sys2Proof.Machine.execSbcHlSs p s
  | .neg => Sys2Proof.Machine.execNeg s
  | .ldIA => Sys2Proof.Machine.execLdIA s
  | .ldRefreshA => Sys2Proof.Machine.execLdRefreshA s
  | .ldAI => Sys2Proof.Machine.execLdAI s
  | .ldARefresh => Sys2Proof.Machine.execLdARefresh s
  | .ldXyNn x nn => Sys2Proof.Machine.execLdXyNn x nn s
  | .ldXyAbs x nn => Sys2Proof.Machine.execLdXyAbs x nn s
  | .ldAbsXy x nn => Sys2Proof.Machine.execLdAbsXy x nn s
  | .ldSpXy x => Sys2Proof.Machine.execLdSpXy x s
  | .pushXy x => Sys2Proof.Machine.execPushXy x s
  | .popXy x => Sys2Proof.Machine.execPopXy x s
  | .exSpXy x => Sys2Proof.Machine.execExSpXy x s
  | .incXy x => Sys2Proof.Machine.execIncXy x s
  | .decXy x => Sys2Proof.Machine.execDecXy x s
  | .addXyPp x p => Sys2Proof.Machine.execAddXyPp x p s
  | .jpXy x => Sys2Proof.Machine.execJpXy x s
  | .ldRXd r x d => Sys2Proof.Machine.execLdRXd r x d s
  | .ldXdR x d r => Sys2Proof.Machine.execLdXdR x d r s
  | .ldXdN x d n => Sys2Proof.Machine.execLdXdN x d n s
  | .addXd x d => Sys2Proof.Machine.execAddXd x d s
  | .addXh x u => Sys2Proof.Machine.execAddXh x u s
  | .adcXd x d => Sys2Proof.Machine.execAdcXd x d s
  | .adcXh x u => Sys2Proof.Machine.execAdcXh x u s
  | .subXd x d => Sys2Proof.Machine.execSubXd x d s
  | .subXh x u => Sys2Proof.Machine.execSubXh x u s
  | .sbcXd x d => Sys2Proof.Machine.execSbcXd x d s
  | .sbcXh x u => Sys2Proof.Machine.execSbcXh x u s
  | .andXd x d => Sys2Proof.Machine.execAndXd x d s
  | .andXh x u => Sys2Proof.Machine.execAndXh x u s
  | .xorXd x d => Sys2Proof.Machine.execXorXd x d s
  | .xorXh x u => Sys2Proof.Machine.execXorXh x u s
  | .orXd x d => Sys2Proof.Machine.execOrXd x d s
  | .orXh x u => Sys2Proof.Machine.execOrXh x u s
  | .cpXd x d => Sys2Proof.Machine.execCpXd x d s
  | .cpXh x u => Sys2Proof.Machine.execCpXh x u s
  | .incXd x d => Sys2Proof.Machine.execIncXd x d s
  | .decXd x d => Sys2Proof.Machine.execDecXd x d s
  | .ldRho x t sr => Sys2Proof.Machine.execLdRho x t sr s
  | .ldXhN x u n => Sys2Proof.Machine.execLdXhN x u n s
  | .incXh x u => Sys2Proof.Machine.execIncXh x u s
  | .decXh x u => Sys2Proof.Machine.execDecXh x u s
  | .rlcXd x d => Sys2Proof.Machine.execRlcXd x d s
  | .rlcXdR x d r => Sys2Proof.Machine.execRlcXdR x d r s
  | .rrcXd x d => Sys2Proof.Machine.execRrcXd x d s
  | .rrcXdR x d r => Sys2Proof.Machine.execRrcXdR x d r s
  | .rlXd x d => Sys2Proof.Machine.execRlXd x d s
  | .rlXdR x d r => Sys2Proof.Machine.execRlXdR x d r s
  | .rrXd x d => Sys2Proof.Machine.execRrXd x d s
  | .rrXdR x d r => Sys2Proof.Machine.execRrXdR x d r s
  | .slaXd x d => Sys2Proof.Machine.execSlaXd x d s
  | .slaXdR x d r => Sys2Proof.Machine.execSlaXdR x d r s
  | .sraXd x d => Sys2Proof.Machine.execSraXd x d s
  | .sraXdR x d r => Sys2Proof.Machine.execSraXdR x d r s
  | .sllXd x d => Sys2Proof.Machine.execSllXd x d s
  | .sllXdR x d r => Sys2Proof.Machine.execSllXdR x d r s
  | .srlXd x d => Sys2Proof.Machine.execSrlXd x d s
  | .srlXdR x d r => Sys2Proof.Machine.execSrlXdR x d r s
  | .bitXd b x d => Sys2Proof.Machine.execBitXd b x d s
  | .resXd b x d => Sys2Proof.Machine.execResXd b x d s
  | .setXd b x d => Sys2Proof.Machine.execSetXd b x d s

end Sys2Proof.Machine
end

