-- ==== Sys2Proof/Machine/Fetch.lean ====
section
/-! DEFINITION. Fetching and decoding at `PC`, the step's frame (10_state.md R50), the record of an outcome in `status`
(60_exceptions.md R455), and the launch of one instruction. -/

namespace Sys2Proof.Machine

/-- The byte at `PC + k mod 2^16` (30_encoding.md R120). A fetch reads `M`; `READABLE` is about data reads (20_memory.md R78). -/
def State.fetchByte (s : State) (k : Nat) : Byte := s.readByte (s.pc + BitVec.ofNat 16 k)

/-- `decode(M, PC)` (30_encoding.md R120). -/
def State.decodeAt (s : State) : Except DecodeReject Instr :=
  decode (s.fetchByte 0) (s.fetchByte 1) (s.fetchByte 2) (s.fetchByte 3)

/-- The bytes a refused fetch has read (60_exceptions.md R455). -/
def State.refusedBytes (s : State) : List Byte :=
  (List.range (refusedLength (s.fetchByte 0) (s.fetchByte 1))).map s.fetchByte

/-- The run has written a byte of the `len` bytes at `PC` (20_memory.md R88). -/
def State.fetchesWritten (s : State) (len : Nat) : Bool :=
  (List.range len).any fun k => s.written.contains (s.pc + BitVec.ofNat 16 k).toNat

/-- A final state (70_reset_and_hazards.md R486): running, `page` in `0..3`, a `HALT` at `PC` that would leave `PC` as it is. -/
def State.isFinal (s : State) : Bool :=
  s.status == .running && decide (s.page < 4) && s.readByte s.pc == 0x76 && rebase s.page s.pc == s.pc

/-- One step of a state whose `status` is `running` (10_state.md R50), in the order of 60_exceptions.md R458: a refusal first,
then the self-modifying-code fault, then the instruction. A final state takes no step (R486): its `HALT` is not fetched, so no
fault of the fetch arises, and the meaning of `HALT` marks it `final` (log entry 2). -/
def runningStep (s : State) : Outcome State :=
  match s.decodeAt with
  | .error .notInBlock => .refused (.notInBlock s.pc s.refusedBytes)
  | .ok i => if s.fetchesWritten i.length && !s.isFinal then .fault (.selfModifyingCode s.pc) else exec i s

/-- One step: a state whose `status` is not `running` has none (60_exceptions.md R455). -/
def stepState (s : State) : Outcome State :=
  match s.status with
  | .running => runningStep s
  | .final => .fault .notRunning
  | .refused _ => .fault .notRunning
  | .faulted _ => .fault .notRunning

/-- The state a step leaves, its mark recorded in `status` (60_exceptions.md R455): a refused or faulted step changes nothing
else, and `stuck` and a run that is over change nothing at all. -/
def State.record (s : State) : Outcome State → State
  | .next t => t
  | .refused r => { s with status := .refused r }
  | .fault .stuck => s
  | .fault .notRunning => s
  | .fault r => { s with status := .faulted r }

/-- A launch byte placed at an address: it is not one the run has written (20_memory.md R78, R88). -/
def State.launchByte (s : State) (a : Word) (v : Byte) : State :=
  { s with mem := Memory.write s.mem a.toNat v, written := s.written.filter fun w => w != a.toNat }

/-- The launch of an instruction's four bytes at `PC`, the run marked `running` (70_reset_and_hazards.md R483, R484). -/
def State.launchAt (s : State) (bytes : List Byte) : State :=
  let s1 := s.launchByte s.pc (byteAt bytes 0)
  let s2 := s1.launchByte (s.pc + 1) (byteAt bytes 1)
  let s3 := s2.launchByte (s.pc + 2) (byteAt bytes 2)
  let s4 := s3.launchByte (s.pc + 3) (byteAt bytes 3)
  { s4 with status := .running }

end Sys2Proof.Machine
end

