-- ==== Sys2Proof/Machine/Step.lean ====
section
/-! DEFINITION. The step function and the launch of one table word (Machine/Fetch.lean holds what they call). -/

namespace Sys2Proof.Machine

/-- One step (10_state.md R50, 60_exceptions.md R455). -/
def step (s : State) : Host.Outcome State Fault Refusal := stepState s

/-- `s` with the instruction of a table word at `PC`, as the launch places a program's bytes (70_reset_and_hazards.md R483): log
entries 13 and 14. -/
def State.withFetchWord (s : State) (nbits w : Nat) : State := s.launchAt (tableWordBytes nbits w)

end Sys2Proof.Machine
end

