-- ==== Sys2Proof/Machine/IrEval.lean ====
section
/-! DEFINITION. Evaluation of IR expressions and fragments against the state (40_ir_fold.md R146 to R150). Values are unbounded
integers; a value outside `-2^31 .. 2^31 - 1` that the evaluation meets, as a literal, a scalar, an operator's result or a written
value, is `fault(IRRange)` (R146; log entries 10 and 30). -/

namespace Sys2Proof.Machine

/-- The local environment `ρ` of a fragment's temporaries (R147); `none` is an undeclared temporary. -/
structure TempEnv where
  temp : Option Value
  val : Option Value
  value : Option Value
  location : Option Value
  deriving DecidableEq, Repr

/-- The initially empty environment (R148). -/
def TempEnv.empty : TempEnv := { temp := none, val := none, value := none, location := none }

def TempEnv.get (ρ : TempEnv) : Temp → Option Value
  | .temp => ρ.temp
  | .val => ρ.val
  | .value => ρ.value
  | .location => ρ.location

def TempEnv.set (ρ : TempEnv) (t : Temp) (v : Value) : TempEnv :=
  match t with
  | .temp => { ρ with temp := some v }
  | .val => { ρ with val := some v }
  | .value => { ρ with value := some v }
  | .location => { ρ with location := some v }

/-- What a fragment runs against: the state, its temporaries, and whether it has written `pc` (10_state.md R55). -/
structure Ctx where
  st : State
  env : TempEnv
  jumped : Bool
  deriving DecidableEq, Repr

/-- The result of an evaluation, or the fault that ends it. -/
abbrev Eval (α : Type) := Except Fault α

/-! ## Values -/

/-- The range in which unbounded integers agree with the source's 32-bit operators (R146). -/
def inIrRange (n : Int) : Bool := decide (-2147483648 ≤ n) && decide (n ≤ 2147483647)

/-- A value that an evaluation may meet (R146). -/
def Value.inIrRange : Value → Bool
  | .num n => Machine.inIrRange n
  | .bool _ => true

/-- "true or a nonzero number", which R148 says of `If`. R146 does not say what `!`, `&&`, `||` and `Conditional` do with a number: they
take it as `If` does, and `&&` and `||` yield the value of the operand that decides. DESIGN CHOICE, safe: log entry 26. -/
def Value.truthy : Value → Bool
  | .num n => n != 0
  | .bool b => b

/-- `Binary` (R145, R146), before the check of the result's range; `none` where the operator has no meaning: a Boolean among numbers, or
`%` outside `x >= 0` and `m > 0` (log entry 10). -/
def binaryValue : BinOp → Value → Value → Option Value
  | .add, .num x, .num y => some (.num (x + y))
  | .sub, .num x, .num y => some (.num (x - y))
  | .mul, .num x, .num y => some (.num (x * y))
  | .mod, .num x, .num y => if 0 ≤ x ∧ 0 < y then some (.num (x % y)) else none
  | .band, .num x, .num y => some (.num (intAnd x y))
  | .bor, .num x, .num y => some (.num (intOr x y))
  | .bxor, .num x, .num y => some (.num (intXor x y))
  | .shl, .num x, .num y => some (.num (shiftLeft x y))
  | .shr, .num x, .num y => some (.num (shiftRight x y))
  | .eq, .num x, .num y => some (.bool (decide (x = y)))
  | .ne, .num x, .num y => some (.bool (decide (x ≠ y)))
  | .lt, .num x, .num y => some (.bool (decide (x < y)))
  | .le, .num x, .num y => some (.bool (decide (x ≤ y)))
  | .gt, .num x, .num y => some (.bool (decide (x > y)))
  | .ge, .num x, .num y => some (.bool (decide (x ≥ y)))
  | .eq, .bool x, .bool y => some (.bool (x == y))
  | .ne, .bool x, .bool y => some (.bool (x != y))
  | _, _, _ => none

/-- `Unary` (R145, R146), before the check of the result's range. -/
def unaryValue : UnOp → Value → Option Value
  | .bnot, .num x => some (.num (intNot x))
  | .neg, .num x => some (.num (-x))
  | .lnot, v => some (.bool (!v.truthy))
  | _, _ => none

/-- The value a compound `Assign.op` combines from the old and the new value (R147). -/
def assignValue : AssignOp → Value → Value → Option Value
  | .set, _, v => some v
  | .add, old, v => binaryValue .add old v
  | .sub, old, v => binaryValue .sub old v
  | .band, old, v => binaryValue .band old v
  | .bor, old, v => binaryValue .bor old v
  | .bxor, old, v => binaryValue .bxor old v

/-- A `u8`, if the value is one. -/
def Value.u8 : Value → Option Byte
  | .num n => if 0 ≤ n ∧ n < 256 then some (BitVec.ofInt 8 n) else none
  | .bool _ => none

/-- A `u16`, if the value is one. -/
def Value.u16 : Value → Option Word
  | .num n => if 0 ≤ n ∧ n < 65536 then some (BitVec.ofInt 16 n) else none
  | .bool _ => none

/-- A byte as a value. -/
def byteValue (v : Byte) : Value := .num v.toNat

/-- A word as a value. -/
def wordValue (v : Word) : Value := .num v.toNat

/-! ## Registers and scalars -/

/-- `Register(x)` (R147). -/
def State.irReg (s : State) : IrReg → Value
  | .a => byteValue s.a
  | .f => byteValue s.f
  | .b => byteValue s.b
  | .c => byteValue s.c
  | .d => byteValue s.d
  | .e => byteValue s.e
  | .h => byteValue s.h
  | .l => byteValue s.l
  | .a' => byteValue s.a'
  | .f' => byteValue s.f'
  | .b' => byteValue s.b'
  | .c' => byteValue s.c'
  | .d' => byteValue s.d'
  | .e' => byteValue s.e'
  | .h' => byteValue s.h'
  | .l' => byteValue s.l'
  | .ixh => byteValue s.ixh
  | .ixl => byteValue s.ixl
  | .iyh => byteValue s.iyh
  | .iyl => byteValue s.iyl
  | .i => byteValue s.i
  | .r => byteValue s.r
  | .sp => wordValue s.sp
  | .pc => wordValue s.pc
  | .iff1 => .num s.iff1.toNat
  | .iff2 => .num s.iff2.toNat

/-- A write of a register; `none` is a value outside its width: R147 for the 8-bit registers, `sp` and `pc`. For the one-bit `iff1` and
`iff2` (10_state.md R42) R147 names no fault: DESIGN CHOICE, safe: log entry 32. -/
def State.setIrReg (s : State) (reg : IrReg) (v : Value) : Option State :=
  match reg with
  | .a => v.u8.map fun x => { s with a := x }
  | .f => v.u8.map fun x => { s with f := x }
  | .b => v.u8.map fun x => { s with b := x }
  | .c => v.u8.map fun x => { s with c := x }
  | .d => v.u8.map fun x => { s with d := x }
  | .e => v.u8.map fun x => { s with e := x }
  | .h => v.u8.map fun x => { s with h := x }
  | .l => v.u8.map fun x => { s with l := x }
  | .a' => v.u8.map fun x => { s with a' := x }
  | .f' => v.u8.map fun x => { s with f' := x }
  | .b' => v.u8.map fun x => { s with b' := x }
  | .c' => v.u8.map fun x => { s with c' := x }
  | .d' => v.u8.map fun x => { s with d' := x }
  | .e' => v.u8.map fun x => { s with e' := x }
  | .h' => v.u8.map fun x => { s with h' := x }
  | .l' => v.u8.map fun x => { s with l' := x }
  | .ixh => v.u8.map fun x => { s with ixh := x }
  | .ixl => v.u8.map fun x => { s with ixl := x }
  | .iyh => v.u8.map fun x => { s with iyh := x }
  | .iyl => v.u8.map fun x => { s with iyl := x }
  | .i => v.u8.map fun x => { s with i := x }
  | .r => v.u8.map fun x => { s with r := x }
  | .sp => v.u16.map fun x => { s with sp := x }
  | .pc => v.u16.map fun x => { s with pc := x }
  | .iff1 => if v = .num 0 then some { s with iff1 := 0 } else if v = .num 1 then some { s with iff1 := 1 } else none
  | .iff2 => if v = .num 0 then some { s with iff2 := 0 } else if v = .num 1 then some { s with iff2 := 1 } else none

/-- An environment scalar read (R147). `page` is read by `rebase` only, so a read of it while `page >= 4` is the fault of
60_exceptions.md R457 (log entry 11). -/
def State.envScalar (s : State) : EnvScalar → Eval Value
  | .pc => .ok (wordValue s.pc)
  | .sp => .ok (wordValue s.sp)
  | .tstates => .ok (.num s.tstates)
  | .page => if s.page < 4 then .ok (.num s.page) else .error (.pageOutOfRange s.page)
  | .im => .ok (.num s.im)
  | .eiInst => .ok (.num s.eiInst)
  | .halt => .ok (.num s.halt)

/-- An environment scalar written; `none` is a value it cannot hold: R147 for `sp` and `pc`. For a negative `page` R147 names no
fault: DESIGN CHOICE, safe: log entry 32. For a Boolean: log entry 10. A write of `tstates` leaves the state as it is, since `tstates` is not modelled
(70_reset_and_hazards.md R496; log entry 9). -/
def State.setEnvScalar (s : State) (x : EnvScalar) (v : Value) : Option State :=
  match x, v with
  | .pc, v => v.u16.map fun w => { s with pc := w }
  | .sp, v => v.u16.map fun w => { s with sp := w }
  | .tstates, .num _ => some s
  | .page, .num n => if 0 ≤ n then some { s with page := n.toNat } else none
  | .im, .num n => some { s with im := n }
  | .eiInst, .num n => some { s with eiInst := n }
  | .halt, .num n => some { s with halt := n }
  | _, .bool _ => none

/-- `get<XY>` (R149). -/
def State.irPair (s : State) : IrPair → Word
  | .bc => s.bc
  | .de => s.de
  | .hl => s.hl
  | .af => s.af
  | .ix => s.index .ix
  | .iy => s.index .iy

/-- `set<XY>` (R149). -/
def State.setIrPair (s : State) (p : IrPair) (v : Word) : State :=
  match p with
  | .bc => s.setBc v
  | .de => s.setDe v
  | .hl => s.setHl v
  | .af => s.setAf v
  | .ix => s.setIndex .ix v
  | .iy => s.setIndex .iy v

/-- The pair that `incHL` ... `decDE` count (R149). -/
def CountPair.pair : CountPair → IrPair
  | .bc => .bc
  | .de => .de
  | .hl => .hl

/-! ## Primitives -/

/-- An argument that must be a `u8`. -/
def needU8 {α : Type} (node : Expr) (v : Value) (k : Byte → Eval α) : Eval α :=
  match v.u8 with
  | some x => k x
  | none => .error (.irRange node)

/-- An argument that must be a `u16`. -/
def needU16 {α : Type} (node : Expr) (v : Value) (k : Word → Eval α) : Eval α :=
  match v.u16 with
  | some x => k x
  | none => .error (.irRange node)

/-- `readMem` (20_memory.md R78). -/
def irRead (s : State) (a : Word) : Eval Byte := if s.canRead a then .ok (s.readByte a) else .error .stuck

/-- `writeMem` (20_memory.md R78). -/
def irWrite (s : State) (a : Word) (v : Byte) : Eval State := if s.canWrite a then .ok (s.writeByte a v) else .error .stuck

/-- `readMemWord` (20_memory.md R72). -/
def irReadWord (s : State) (a : Word) : Eval Word :=
  match irRead s a with
  | .error r => .error r
  | .ok low =>
    match irRead s (a + 1) with
    | .error r => .error r
    | .ok high => .ok (join high low)

/-- `incMem` and `decMem` (41_alu_flags.md R202). -/
def irModify (s : State) (a : Word) (g : State → Byte → Byte × State) : Eval State :=
  match irRead s a with
  | .error r => .error r
  | .ok v => irWrite (g s v).2 a (g s v).1

/-- `push16(v)` (48_control_stack.md R405). -/
def irPush (s : State) (v : Word) : Eval State :=
  match irWrite { s with sp := s.sp - 1 } (s.sp - 1) (hi v) with
  | .error r => .error r
  | .ok s1 => irWrite { s1 with sp := s1.sp - 1 } (s1.sp - 1) (lo v)

/-- What a `Call` of a primitive without a result yields: R147 and 41_alu_flags.md R202 give it no value. DESIGN CHOICE, safe: log
entry 27. -/
def noResult : Value := .num 0

/-- The end of a primitive that changes only the state. -/
def effect (e : Eval State) : Eval (Value × State) := e.map fun s => (noResult, s)

/-- `Call(p, args)` on evaluated arguments (R149, 41_alu_flags.md R202, 48_control_stack.md R405). A call with another number of arguments
than the signature of R202 has no outcome in the spec: it is `fault(IRRange)`. DESIGN CHOICE, safe: log entry 28. -/
def callPrim (node : Expr) (s : State) : Prim → List Value → Eval (Value × State)
  | .readMem, [v] => needU16 node v fun a => (irRead s a).map fun x => (byteValue x, s)
  | .readMemWord, [v] => needU16 node v fun a => (irReadWord s a).map fun x => (wordValue x, s)
  | .writeMem, [v, w] => needU16 node v fun a => needU8 node w fun x => effect (irWrite s a x)
  | .incMem, [v] => needU16 node v fun a => effect (irModify s a State.inc8)
  | .decMem, [v] => needU16 node v fun a => effect (irModify s a State.dec8)
  | .getPair p, [] => .ok (wordValue (s.irPair p), s)
  | .setPair p, [v] => needU16 node v fun x => effect (.ok (s.setIrPair p x))
  | .incPair p, [] => effect (.ok (s.setIrPair p.pair (s.irPair p.pair + 1)))
  | .decPair p, [] => effect (.ok (s.setIrPair p.pair (s.irPair p.pair - 1)))
  | .addA, [v] => needU8 node v fun x => effect (.ok (s.addA x))
  | .adcA, [v] => needU8 node v fun x => effect (.ok (s.adcA x))
  | .subA, [v] => needU8 node v fun x => effect (.ok (s.subA x))
  | .sbcA, [v] => needU8 node v fun x => effect (.ok (s.sbcA x))
  | .cpA, [v] => needU8 node v fun x => effect (.ok (s.cpA x))
  | .add16, [v, w] => needU16 node v fun x => needU16 node w fun y => .ok (wordValue (s.add16 x y).1, (s.add16 x y).2)
  | .inc8, [v] => needU8 node v fun x => .ok (byteValue (s.inc8 x).1, (s.inc8 x).2)
  | .dec8, [v] => needU8 node v fun x => .ok (byteValue (s.dec8 x).1, (s.dec8 x).2)
  | .rlcaA, [] => effect (.ok (s.rotateA .rlc))
  | .rrcaA, [] => effect (.ok (s.rotateA .rrc))
  | .rlaA, [] => effect (.ok (s.rotateA .rl))
  | .rraA, [] => effect (.ok (s.rotateA .rr))
  | .daa, [] => effect (.ok s.daa)
  | .cplA, [] => effect (.ok s.cplA)
  | .ccf, [] => effect (.ok s.ccf)
  | .push1, [v] => needU16 node v fun x => effect (irPush s x)
  | .push2, [v, w] => needU8 node v fun h => needU8 node w fun l => effect (irPush s (join h l))
  | .rotate op, [v] => needU8 node v fun x => .ok (byteValue (s.rotate op x).1, (s.rotate op x).2)
  | .draw, [] => .ok (byteValue s.drawn, s.afterDraw)
  | _, _ => .error (.irRange node)

/-- `Index(T, k)` (R150): the key is in `0..255`. -/
def tableValue (t : Table) (k : Value) : Option Value :=
  k.u8.map fun x =>
    match t with
    | .sz => byteValue (sz x)
    | .szp => byteValue (szp x)

/-! ## Expressions -/

/-- What a temporary or an environment scalar holds (R147), before the check of its range. -/
def Ctx.held (c : Ctx) : Ident → Eval Value
  | .tmp t =>
    match c.env.get t with
    | some v => .ok v
    | none => .error (.irUnbound (.identifier (.tmp t)))
  | .env x => c.st.envScalar x

/-- `Identifier(x)` (R147), inside the range of R146. -/
def Ctx.ident (c : Ctx) (x : Ident) : Eval Value :=
  match c.held x with
  | .error e => .error e
  | .ok v => if v.inIrRange then .ok v else .error (.irRange (.identifier x))

/-- The old value of an assignment's target, as an expression would read it (R146, R147). -/
def Ctx.targetValue (c : Ctx) : Target → Eval Value
  | .register reg => .ok (c.st.irReg reg)
  | .identifier x => c.ident x

/-- The state part of a write. -/
def Ctx.withState (c : Ctx) (s : Option State) (jumped : Bool) (node : Expr) : Eval Ctx :=
  match s with
  | some s => .ok { c with st := s, jumped := c.jumped || jumped }
  | none => .error (.irRange node)

/-- The write of an assignment (R147); a write of `pc` is marked (10_state.md R55). A plain assignment to a temporary that no `VarDecl`
declared binds it: R147 gives a fault to a read only. DESIGN CHOICE, safe: log entry 25. -/
def Ctx.assign (c : Ctx) (node : Expr) (target : Target) (v : Value) : Eval Ctx :=
  if v.inIrRange then
    match target with
    | .register reg => c.withState (c.st.setIrReg reg v) (reg == .pc) node
    | .identifier (.tmp t) => .ok { c with env := c.env.set t v }
    | .identifier (.env x) => c.withState (c.st.setEnvScalar x v) (x == .pc) node
  else .error (.irRange node)

/-- A value inside the range of R146, or `fault(IRRange)` at the node. -/
def orRange (node : Expr) (v : Option Value) (c : Ctx) : Eval (Value × Ctx) :=
  match v with
  | some v => if v.inIrRange then .ok (v, c) else .error (.irRange node)
  | none => .error (.irRange node)

mutual

/-- Evaluation of an expression (R147), operands left to right. A `Binary` that `fold` makes a literal means that literal, so that `fold`
preserves meaning for every expression (R165), out-of-range literals included (log entry 30). -/
def evalExpr : Expr → Ctx → Eval (Value × Ctx)
  | .literal v, c => orRange (.literal v) (some v) c
  | .bit n, c => .ok (.num (2 ^ n.val : Nat), c)
  | .register reg, c => .ok (c.st.irReg reg, c)
  | .identifier x, c => (c.ident x).map fun v => (v, c)
  | .binary op l r, c =>
    match fold (.binary op l r) with
    | .literal v => orRange (.literal v) (some v) c
    | _ =>
      match evalExpr l c with
      | .error e => .error e
      | .ok (x, c1) =>
        match evalExpr r c1 with
        | .error e => .error e
        | .ok (y, c2) => orRange (.binary op l r) (binaryValue op x y) c2
  | .unary op a, c =>
    match evalExpr a c with
    | .error e => .error e
    | .ok (x, c1) => orRange (.unary op a) (unaryValue op x) c1
  | .logical .and l r, c =>
    match evalExpr l c with
    | .error e => .error e
    | .ok (x, c1) => if x.truthy then evalExpr r c1 else .ok (x, c1)
  | .logical .or l r, c =>
    match evalExpr l c with
    | .error e => .error e
    | .ok (x, c1) => if x.truthy then .ok (x, c1) else evalExpr r c1
  | .conditional t x y, c =>
    match evalExpr t c with
    | .error e => .error e
    | .ok (v, c1) => if v.truthy then evalExpr x c1 else evalExpr y c1
  | .index t k, c =>
    match evalExpr k c with
    | .error e => .error e
    | .ok (v, c1) => orRange (.index t k) (tableValue t v) c1
  | .call p args, c =>
    match evalArgs args c with
    | .error e => .error e
    | .ok (vs, c1) => (callPrim (.call p args) c1.st p vs).map fun r => (r.1, { c1 with st := r.2 })
  | .assign op target e, c =>
    match evalExpr e c with
    | .error r => .error r
    | .ok (v, c1) =>
      match c1.targetValue target, op with
      | _, .set => (c1.assign (.assign op target e) target v).map fun c2 => (v, c2)
      | .error r, _ => .error r
      | .ok old, op =>
        match assignValue op old v with
        | some w => (c1.assign (.assign op target e) target w).map fun c2 => (w, c2)
        | none => .error (.irRange (.assign op target e))

/-- Evaluation of an argument list, left to right (R147). -/
def evalArgs : Args → Ctx → Eval (List Value × Ctx)
  | .nil, c => .ok ([], c)
  | .cons e rest, c =>
    match evalExpr e c with
    | .error r => .error r
    | .ok (v, c1) => (evalArgs rest c1).map fun r => (v :: r.1, r.2)

end

/-! ## Statements and fragments -/

mutual

/-- Execution of a statement (R148); `true` is a `Return`. R148 says only that `Return(_)` ends the fragment: the expression of
`Return(e)` is evaluated first, and its effects and faults count. DESIGN CHOICE, safe: log entry 24. -/
def runStmt : Stmt → Ctx → Eval (Bool × Ctx)
  | .varDecl t e, c =>
    match evalExpr e c with
    | .error r => .error r
    | .ok (v, c1) => .ok (false, { c1 with env := c1.env.set t v })
  | .exprStmt e, c => (evalExpr e c).map fun r => (false, r.2)
  | .block ss, c => runStmts ss c
  | .ifElse t s alt, c =>
    match evalExpr t c with
    | .error r => .error r
    | .ok (v, c1) => if v.truthy then runStmt s c1 else runStmts alt c1
  | .ret none, c => .ok (true, c)
  | .ret (some e), c => (evalExpr e c).map fun r => (true, r.2)

/-- Execution in order, to the last statement or the first `Return` (R148). -/
def runStmts : Stmts → Ctx → Eval (Bool × Ctx)
  | .nil, c => .ok (false, c)
  | .cons s rest, c =>
    match runStmt s c with
    | .error r => .error r
    | .ok (true, c1) => .ok (true, c1)
    | .ok (false, c1) => runStmts rest c1

end

/-- A fragment of an instruction of length `len` run from a state (R148), with the `pc` rule of 10_state.md R55. -/
def runFragment (s : State) (len : Nat) (fr : Fragment) : Outcome State :=
  match runStmts fr { st := s, env := TempEnv.empty, jumped := false } with
  | .error r => .fault r
  | .ok (_, c) => if c.jumped then .next c.st else fallThrough c.st len

end Sys2Proof.Machine
end

