-- ==== Sys2Proof/Machine/Template.lean ====
section
/-! DEFINITION. The family templates of the synthesis phase (00_scope.md R7), which build an instruction's IR fragment from operand
descriptors. A call whose descriptors no row of opcode_table.json passes raises (60_exceptions.md R450, R451; log entry 23). Only the
shape laws of the spec fix the trees (40_ir_fold.md R153, R166, R170 to R174; 42_load.md R222; 45_arith16.md R317, R320;
48_control_stack.md R385; 49_misc.md R435); the rest of each tree is the model's own. DESIGN CHOICE, safe: log entry 17. -/

namespace Sys2Proof.Machine

/-! ## Descriptors, calls, holes, violations -/

/-- An operand descriptor (00_scope.md R20). It holds no decoded value: a template selects by operand shape (40_ir_fold.md R170). -/
inductive Desc where
  | reg (reg : IrReg)
  | pair (p : IrPair)
  | sp
  | imm8
  | imm16
  | memPair (p : IrPair)
  | direct
  | indexed (x : IndexReg)
  deriving DecidableEq, Repr

/-- The delegating accumulator operations (43_arith8.md R271 to R275). -/
inductive AccOp where
  | add | adc | sub | sbc | cp
  deriving DecidableEq, Repr

/-- The accumulator rotates (46_rotate_shift.md R341 to R344). -/
inductive AccRot where
  | rlca | rrca | rla | rra
  deriving DecidableEq, Repr

/-- A template call: the family (00_scope.md R4, 30_encoding.md R123) and its operand descriptors. -/
inductive Call where
  | ld8 (dst src : Desc)
  | ldWriteMem (dst src : Desc)
  | ld8D (dst src : Desc)
  | ld16 (dst src : Desc)
  | ldSp (src : Desc)
  | ldNn (src : Desc)
  | alu (op : AccOp) (src : Desc)
  | logical (op : LogicOp) (src : Desc)
  | inc8 (dst : Desc)
  | dec8 (dst : Desc)
  | inc16 (dst : Desc)
  | dec16 (dst : Desc)
  | add16 (dst src : Desc)
  | adc16 (src : Desc)
  | sbc16 (src : Desc)
  | accRotate (op : AccRot)
  /-- `generateCBFunctions` (40_ir_fold.md R174). -/
  | cb (op : RotOp) (dst : Desc)
  /-- `generateIndexCBFunctions` (R174); `mirror` is the register of the store-and-mirror shape. -/
  | indexCb (op : RotOp) (dst : Desc) (mirror : Option Desc)
  | bit (b : Fin 8) (src : Desc)
  | res (b : Fin 8) (dst : Desc)
  | set (b : Fin 8) (dst : Desc)
  | jp (cc : Option Cond)
  | jpPair (dst : Desc)
  | jr (cc : Option RelCond)
  | djnz
  | call (cc : Option Cond)
  | rst
  | ret (cc : Option Cond)
  | push (src : Desc)
  | pop (dst : Desc)
  | exDeHl
  | exAfAf
  | exx
  | exSp (reg : Desc)
  | neg
  | daa
  | cpl
  | scf
  | ccf
  | nop
  | halt
  deriving DecidableEq, Repr

/-- `ContractViolation(info)`: a malformed template call (60_exceptions.md R450, R451); `info` is the call, which names the family and
its descriptors. -/
structure ContractViolation where
  info : Call
  deriving DecidableEq, Repr

/-- The runtime-decoded values a fragment can hold as literals (40_ir_fold.md R171), and the displacement `s8(d)` that is resolved into
the operand address of an indexed row (30_encoding.md R107). -/
structure Holes where
  value : Int
  target : Int
  nextAddress : Int
  displacement : Int
  deriving DecidableEq, Repr

/-- A closure from the decoded values to a fragment (R171). -/
abbrev Template := Holes → Fragment

/-- The result of a template call: it raises at once (60_exceptions.md R450). -/
abbrev Synth := Except ContractViolation Template

/-- A malformed call. -/
def violation (c : Call) : Synth := .error { info := c }

/-! ## Building blocks -/

def Stmts.ofList : List Stmt → Stmts
  | [] => .nil
  | s :: rest => .cons s (Stmts.ofList rest)

def Args.ofList : List Expr → Args
  | [] => .nil
  | e :: rest => .cons e (Args.ofList rest)

/-- A template, by the statements of its fragment. -/
def fragment (ss : Holes → List Stmt) : Synth := .ok fun h => Stmts.ofList (ss h)

/-- A fragment without holes. -/
def constant (ss : List Stmt) : Synth := fragment fun _ => ss

def regE (reg : IrReg) : Expr := .register reg
def tmpE (t : Temp) : Expr := .identifier (.tmp t)
def pageE : Expr := .identifier (.env .page)
def andE (x y : Expr) : Expr := .binary .band x y
def orE (x y : Expr) : Expr := .binary .bor x y
def xorE (x y : Expr) : Expr := .binary .bxor x y
def addE (x y : Expr) : Expr := .binary .add x y
def subE (x y : Expr) : Expr := .binary .sub x y
def shrE (x : Expr) (k : Int) : Expr := .binary .shr x (numLit k)
def callE (p : Prim) (args : List Expr) : Expr := .call p (Args.ofList args)
def setReg (reg : IrReg) (e : Expr) : Stmt := .exprStmt (.assign .set (.register reg) e)
def setPc (e : Expr) : Stmt := .exprStmt (.assign .set (.identifier (.env .pc)) e)
def callS (p : Prim) (args : List Expr) : Stmt := .exprStmt (callE p args)

/-- `If(test) { body }` without an alternate. -/
def ifS (test : Expr) (body : List Stmt) : Stmt := .ifElse test (.block (Stmts.ofList body)) .nil

/-- `XY(e)` (41_alu_flags.md R180), by the policy the table is built with. -/
def xyE (undoc : UndocPolicy) (e : Expr) : Expr :=
  match undoc with
  | .z80 => andE e (numLit 0x28)
  | .draw => andE (callE .draw []) (numLit 0x28)

/-- `draw() & mask` (R180, R199). -/
def drawE (mask : Int) : Expr := andE (callE .draw []) (numLit mask)

/-- The two halves of a pair, the high one first (10_state.md R33, R37). -/
def IrPair.halves : IrPair → IrReg × IrReg
  | .bc => (.b, .c)
  | .de => (.d, .e)
  | .hl => (.h, .l)
  | .af => (.a, .f)
  | .ix => (.ixh, .ixl)
  | .iy => (.iyh, .iyl)

/-- The accessor pair of an index register. -/
def IndexReg.irPair : IndexReg → IrPair
  | .ix => .ix
  | .iy => .iy

/-- `(XY + s8(d)) & 0xFFFF`, the `location` of the indexed shapes (47_bit.md R365). -/
def locationE (x : IndexReg) (h : Holes) : Expr :=
  andE (addE (callE (.getPair (IndexReg.irPair x)) []) (numLit h.displacement)) (numLit 0xFFFF)

/-- The declaration of `location`. -/
def locationS (x : IndexReg) (h : Holes) : Stmt := .varDecl .location (locationE x h)

/-- `H:L`, the address of the HL-indirect shapes. -/
def hlE : Expr := callE (.getPair .hl) []

/-- One of the registers that a 3-bit field names (30_encoding.md R103). -/
def IrReg.isMain : IrReg → Bool
  | .b | .c | .d | .e | .h | .l | .a => true
  | _ => false

/-- The index register that a half belongs to. -/
def IrReg.halfOf : IrReg → Option IndexReg
  | .ixh | .ixl => some .ix
  | .iyh | .iyl => some .iy
  | _ => none

/-- An 8-bit operand register of an arithmetic row or of an immediate load: a main register or an index half. -/
def IrReg.isPlace (reg : IrReg) : Bool := reg.isMain || reg.halfOf.isSome

/-- The register keeps its meaning beside an index half: `H` and `L` do not (30_encoding.md R109). -/
def IrReg.besideHalf (reg : IrReg) : Bool := reg.isMain && reg != .h && reg != .l

/-- The register copies that have an encoding (30_encoding.md R103, R109, R110). -/
def copyable (dst src : IrReg) : Bool :=
  match dst.halfOf, src.halfOf with
  | none, none => dst.isMain && src.isMain
  | some _, none => src.besideHalf
  | none, some _ => dst.besideHalf
  | some x, some y => x == y

/-- The loads and stores of a register through a pair that have an encoding: any main register through `HL`, `A` through `BC` and `DE`. -/
def throughPair (reg : IrReg) (p : IrPair) : Bool :=
  match p with
  | .hl => reg.isMain
  | .bc | .de => reg == .a
  | .af | .ix | .iy => false

/-- A pair other than `AF`: the pairs of the 16-bit loads and counts. -/
def IrPair.isWord (p : IrPair) : Bool := p != .af

/-- `HL` or an index register: the pairs of `LD SP`, `JP` and `EX (SP)`. -/
def IrPair.isPointer (p : IrPair) : Bool := p == .hl || p == .ix || p == .iy

/-- A `ss` operand (30_encoding.md R104). -/
def ssE : Desc → Option Expr
  | .pair .bc => some (callE (.getPair .bc) [])
  | .pair .de => some (callE (.getPair .de) [])
  | .pair .hl => some (callE (.getPair .hl) [])
  | .sp => some (regE .sp)
  | _ => none

/-- The operand of `ADD dst,src`: a `ss` for `HL`, a `ppx` for an index register (R104). -/
def addE16 (dst : IrPair) (src : Desc) : Option Expr :=
  match src with
  | .sp => if dst.isPointer then some (regE .sp) else none
  | .pair p => if dst.isPointer && (p == .bc || p == .de || p == dst) then some (callE (.getPair p) []) else none
  | _ => none

/-- An 8-bit source operand: the literal, register and memory shapes (43_arith8.md R270). -/
def sourceE (src : Desc) : Option (Holes → Expr) :=
  match src with
  | .reg reg => if reg.isPlace then some fun _ => regE reg else none
  | .imm8 => some fun h => numLit h.value
  | .memPair .hl => some fun _ => callE .readMem [hlE]
  | .indexed x => some fun h => callE .readMem [locationE x h]
  | _ => none

/-- `rebase(e)` (20_memory.md R80). -/
def rebaseE (e : Expr) : Expr :=
  addE (.binary .mod e (numLit 0x4000)) (.binary .mul pageE (numLit 0x4000))

/-- `SET16(hi, lo, v)` (42_load.md R222): two folded literal loads for a literal `v`, else the runtime split. -/
def set16 (high low : IrReg) (v : Expr) : List Stmt :=
  match v with
  | .literal v =>
    [setReg high (fold (.binary .shr (.literal v) (numLit 8))), setReg low (fold (.binary .band (.literal v) (numLit 0xFF)))]
  | e => [.varDecl .val e, setReg high (shrE (tmpE .val) 8), setReg low (andE (tmpE .val) (numLit 0xFF))]

/-- `SET16` of a pair. -/
def setPair16 (p : IrPair) (e : Expr) : List Stmt := set16 p.halves.1 p.halves.2 e

/-- `SP <- (SP + k) & 0xFFFF`. -/
def bumpSp (k : Int) : Stmt := setReg .sp (andE (addE (regE .sp) (numLit k)) (numLit 0xFFFF))

/-- The swap of two registers through one temporary (40_ir_fold.md R173). -/
def swap (x y : IrReg) : List Stmt := [.varDecl .temp (regE x), setReg x (regE y), setReg y (tmpE .temp)]

/-! ## Load templates (42_load.md R220) -/

/-- The flags of `LD A,I` and `LD A,R` (41_alu_flags.md R200). -/
def irFlagsS (undoc : UndocPolicy) : Stmt :=
  setReg .f (orE (orE (orE (andE (regE .f) (numLit 0x01)) (.index .sz (regE .a))) (xyE undoc (regE .a)))
    (.conditional (regE .iff2) (numLit 0x04) (numLit 0)))

/-- `LD8`: into a register from a literal, a register, or memory. -/
def ld8T (undoc : UndocPolicy) (dst src : Desc) : Synth :=
  match dst, src with
  | .reg .a, .reg .i => constant [setReg .a (regE .i), irFlagsS undoc]
  | .reg .a, .reg .r => constant [setReg .a (callE .draw []), irFlagsS undoc]
  | .reg .i, .reg .a => constant [setReg .i (regE .a)]
  | .reg .r, .reg .a => constant [setReg .r (regE .a)]
  | .reg rd, .reg rs => if copyable rd rs then constant [setReg rd (regE rs)] else violation (.ld8 dst src)
  | .reg rd, .imm8 => if rd.isPlace then fragment fun h => [setReg rd (numLit h.value)] else violation (.ld8 dst src)
  | .reg rd, .memPair p =>
    if throughPair rd p then constant [setReg rd (callE .readMem [callE (.getPair p) []])] else violation (.ld8 dst src)
  | .reg .a, .direct => fragment fun h => [setReg .a (callE .readMem [numLit h.value])]
  | _, _ => violation (.ld8 dst src)

/-- `LD8_D`: into a register from `(XY+d)`. -/
def ld8DT (dst src : Desc) : Synth :=
  match dst, src with
  | .reg reg, .indexed x =>
    if reg.isMain then fragment fun h => [locationS x h, setReg reg (callE .readMem [tmpE .location])]
    else violation (.ld8D dst src)
  | _, _ => violation (.ld8D dst src)

/-- `LD_WRITE_MEM`: from a register or a literal to memory. -/
def ldWriteMemT (dst src : Desc) : Synth :=
  match dst, src with
  | .memPair p, .reg reg =>
    if throughPair reg p then constant [callS .writeMem [callE (.getPair p) [], regE reg]] else violation (.ldWriteMem dst src)
  | .memPair .hl, .imm8 => fragment fun h => [callS .writeMem [hlE, numLit h.value]]
  | .direct, .reg .a => fragment fun h => [callS .writeMem [numLit h.value, regE .a]]
  | .indexed x, .reg reg =>
    if reg.isMain then fragment fun h => [locationS x h, callS .writeMem [tmpE .location, regE reg]]
    else violation (.ldWriteMem dst src)
  | .indexed x, .imm8 => fragment fun h => [locationS x h, callS .writeMem [tmpE .location, numLit h.value]]
  | _, _ => violation (.ldWriteMem dst src)

/-- `LD16`: into a pair or `SP` from a literal or from two bytes of memory. -/
def ld16T (dst src : Desc) : Synth :=
  match dst, src with
  | .pair p, .imm16 => if p.isWord then fragment fun h => setPair16 p (numLit h.value) else violation (.ld16 dst src)
  | .sp, .imm16 => fragment fun h => [setReg .sp (numLit h.value)]
  | .pair p, .direct =>
    if p.isWord then fragment fun h => setPair16 p (callE .readMemWord [numLit h.value]) else violation (.ld16 dst src)
  | .sp, .direct => fragment fun h => [setReg .sp (callE .readMemWord [numLit h.value])]
  | _, _ => violation (.ld16 dst src)

/-- `LD_SP`: into `SP` from a pair. -/
def ldSpT (src : Desc) : Synth :=
  match src with
  | .pair p => if p.isPointer then constant [setReg .sp (callE (.getPair p) [])] else violation (.ldSp src)
  | _ => violation (.ldSp src)

/-- `LD_NN`: from a pair or `SP` to two bytes of memory, the low byte first (20_memory.md R72). -/
def ldNnT (src : Desc) : Synth :=
  match src with
  | .pair p =>
    if p.isWord then
      fragment fun h => [callS .writeMem [numLit h.value, regE p.halves.2],
        callS .writeMem [numLit ((h.value + 1) % 65536), regE p.halves.1]]
    else violation (.ldNn src)
  | .sp => fragment fun h => [callS .writeMem [numLit h.value, andE (regE .sp) (numLit 0xFF)],
      callS .writeMem [numLit ((h.value + 1) % 65536), shrE (regE .sp) 8]]
  | _ => violation (.ldNn src)

/-! ## Arithmetic and logical templates -/

/-- The primitive of a delegating operation (41_alu_flags.md R202). -/
def AccOp.prim : AccOp → Prim
  | .add => .addA
  | .adc => .adcA
  | .sub => .subA
  | .sbc => .sbcA
  | .cp => .cpA

/-- `ADD ADC SUB SBC CP`: a delegation to the primitive (43_arith8.md R271 to R275). -/
def aluT (op : AccOp) (src : Desc) : Synth :=
  match sourceE src with
  | some e => fragment fun h => [callS op.prim [e h]]
  | none => violation (.alu op src)

/-- The operator of a logical operation. -/
def logicBinOp : LogicOp → BinOp
  | .and => .band
  | .xor => .bxor
  | .or => .bor

/-- `AND XOR OR`: the result in place, then `F` from the flag table (44_logical.md R300), with `XY(r)` (41_alu_flags.md R192). -/
def logicT (undoc : UndocPolicy) (op : LogicOp) (src : Desc) : Synth :=
  let flags : Expr :=
    match op with
    | .and => orE (.index .szp (regE .a)) (numLit 0x10)
    | .xor => .index .szp (regE .a)
    | .or => .index .szp (regE .a)
  match sourceE src with
  | some e => fragment fun h =>
    [setReg .a (.binary (logicBinOp op) (regE .a) (e h)), setReg .f (orE flags (xyE undoc (regE .a)))]
  | none => violation (.logical op src)

/-- `INC8` and `DEC8`: the primitive on a register, `incMem` or `decMem` on memory (43_arith8.md R276, R277); `c` is the call. -/
def countT (c : Call) (onReg onMem : Prim) (dst : Desc) : Synth :=
  match dst with
  | .reg reg => if reg.isPlace then constant [setReg reg (callE onReg [regE reg])] else violation c
  | .memPair .hl => constant [callS onMem [hlE]]
  | .indexed x => fragment fun h => [locationS x h, callS onMem [tmpE .location]]
  | _ => violation c

/-- `ADD16`: a delegation to `add16` (45_arith16.md R315). -/
def add16T (dst src : Desc) : Synth :=
  match dst with
  | .pair p =>
    match addE16 p src with
    | some e => constant [callS (.setPair p) [callE .add16 [callE (.getPair p) [], e]]]
    | none => violation (.add16 dst src)
  | _ => violation (.add16 dst src)

/-- The split of a 16-bit temporary into `H` and `L`. -/
def splitTempHl : List Stmt :=
  [setReg .h (andE (shrE (tmpE .temp) 8) (numLit 0xFF)), setReg .l (andE (tmpE .temp) (numLit 0xFF))]

/-- `ADC16`, inline (45_arith16.md R317): the sub-expressions of 41_alu_flags.md R189, as written there. -/
def adc16T (src : Desc) : Synth :=
  match ssE src with
  | some e =>
    let x := callE (.getPair .hl) []
    let y := tmpE .val
    let t := tmpE .temp
    constant ([.varDecl .val e,
      .varDecl .temp (addE (addE x y) (andE (regE .f) (numLit 0x01))),
      setReg .f (orE (orE (orE (orE
        (andE (shrE (xorE (xorE x t) y) 8) (numLit 0x10))
        (andE (shrE t 16) (numLit 0x01)))
        (andE (shrE t 8) (numLit 0x80)))
        (.conditional (.binary .ne (andE t (numLit 0xFFFF)) (numLit 0)) (numLit 0) (numLit 0x40)))
        (shrE (andE (andE (xorE (xorE y x) (numLit 0x8000)) (xorE y t)) (numLit 0x8000)) 13))] ++ splitTempHl)
  | none => violation (.adc16 src)

/-- `SBC16`, inline and not shared with `ADC16` (45_arith16.md R317): the sub-expressions of 41_alu_flags.md R190. -/
def sbc16T (src : Desc) : Synth :=
  match ssE src with
  | some e =>
    let x := callE (.getPair .hl) []
    let y := tmpE .val
    let t := tmpE .temp
    constant ([.varDecl .val e,
      .varDecl .temp (subE (subE x y) (andE (regE .f) (numLit 0x01))),
      setReg .f (orE (orE (orE (orE (orE
        (andE (shrE (xorE (xorE x t) y) 8) (numLit 0x10))
        (numLit 0x02))
        (andE (shrE t 16) (numLit 0x01)))
        (andE (shrE t 8) (numLit 0x80)))
        (.conditional (.binary .ne (andE t (numLit 0xFFFF)) (numLit 0)) (numLit 0) (numLit 0x40)))
        (shrE (andE (andE (xorE y x) (xorE x t)) (numLit 0x8000)) 13))] ++ splitTempHl)
  | none => violation (.sbc16 src)

/-- `INC16`: each half masked to 8 bits, the carry an explicit `If` on the low half reaching 0 (45_arith16.md R320). -/
def inc16T (dst : Desc) : Synth :=
  match dst with
  | .pair p =>
    if p.isWord then
      constant [setReg p.halves.2 (andE (addE (regE p.halves.2) (numLit 1)) (numLit 0xFF)),
        ifS (.binary .eq (regE p.halves.2) (numLit 0))
          [setReg p.halves.1 (andE (addE (regE p.halves.1) (numLit 1)) (numLit 0xFF))]]
    else violation (.inc16 dst)
  | .sp => constant [bumpSp 1]
  | _ => violation (.inc16 dst)

/-- `DEC16`: the borrow an explicit `If` on the low half reaching 255 (45_arith16.md R322). -/
def dec16T (dst : Desc) : Synth :=
  match dst with
  | .pair p =>
    if p.isWord then
      constant [setReg p.halves.2 (andE (subE (regE p.halves.2) (numLit 1)) (numLit 0xFF)),
        ifS (.binary .eq (regE p.halves.2) (numLit 255))
          [setReg p.halves.1 (andE (subE (regE p.halves.1) (numLit 1)) (numLit 0xFF))]]
    else violation (.dec16 dst)
  | .sp => constant [setReg .sp (andE (subE (regE .sp) (numLit 1)) (numLit 0xFFFF))]
  | _ => violation (.dec16 dst)

/-! ## Rotate, shift and bit templates -/

/-- The primitive of an accumulator rotate (41_alu_flags.md R194). -/
def AccRot.prim : AccRot → Prim
  | .rlca => .rlcaA
  | .rrca => .rrcaA
  | .rla => .rlaA
  | .rra => .rraA

/-- `generateCBFunctions(primitiveName)` (40_ir_fold.md R174): plain register or HL-indirect. -/
def generateCb (op : RotOp) (dst : Desc) : Synth :=
  match dst with
  | .reg reg => if reg.isMain then constant [setReg reg (callE (.rotate op) [regE reg])] else violation (.cb op dst)
  | .memPair .hl => constant [callS .writeMem [hlE, callE (.rotate op) [callE .readMem [hlE]]]]
  | _ => violation (.cb op dst)

/-- `generateIndexCBFunctions(primitiveName)` (R174): store-only, or store-and-mirror-into-register. -/
def generateIndexCb (op : RotOp) (dst : Desc) (mirror : Option Desc) : Synth :=
  match dst, mirror with
  | .indexed x, none => fragment fun h =>
    [locationS x h, callS .writeMem [tmpE .location, callE (.rotate op) [callE .readMem [tmpE .location]]]]
  | .indexed x, some (.reg reg) =>
    if reg.isMain then
      fragment fun h => [locationS x h, .varDecl .temp (callE (.rotate op) [callE .readMem [tmpE .location]]),
        callS .writeMem [tmpE .location, tmpE .temp], setReg reg (tmpE .temp)]
    else violation (.indexCb op dst mirror)
  | _, _ => violation (.indexCb op dst mirror)

/-- The flags of `BIT` from the tested byte `v` (41_alu_flags.md R199); `regForm` is the register shape. The sign is the tested bit under
the mask of bit 7, so that the tree has one shape for every bit number (40_ir_fold.md R170). -/
def bitFlagsE (undoc : UndocPolicy) (b : Fin 8) (v : Expr) (regForm : Bool) : Expr :=
  let tested := andE v (.bit b)
  let clear := .binary .eq tested (numLit 0)
  let fixed := orE (andE (regE .f) (numLit 0x01)) (numLit 0x10)
  match undoc with
  | .draw => orE (orE fixed (.conditional clear (numLit 0x40) (numLit 0))) (drawE 0xAC)
  | .z80 =>
    orE (orE (orE fixed (.conditional clear (numLit 0x44) (numLit 0))) (andE tested (numLit 0x80)))
      (if regForm then andE v (numLit 0x28) else drawE 0x28)

/-- `BIT` reads its operand once and writes only `F` (47_bit.md R366). -/
def bitT (undoc : UndocPolicy) (b : Fin 8) (src : Desc) : Synth :=
  match src with
  | .reg reg => if reg.isMain then constant [setReg .f (bitFlagsE undoc b (regE reg) true)] else violation (.bit b src)
  | .memPair .hl =>
    constant [.varDecl .val (callE .readMem [hlE]), setReg .f (bitFlagsE undoc b (tmpE .val) false)]
  | .indexed x => fragment fun h =>
    [locationS x h, .varDecl .val (callE .readMem [tmpE .location]), setReg .f (bitFlagsE undoc b (tmpE .val) false)]
  | _ => violation (.bit b src)

/-- `RES` and `SET`: read, modify, write at one address (47_bit.md R367, R368); `c` is the call. -/
def modifyBitT (c : Call) (g : Expr → Expr) (dst : Desc) : Synth :=
  match dst with
  | .reg reg => if reg.isMain then constant [setReg reg (g (regE reg))] else violation c
  | .memPair .hl => constant [callS .writeMem [hlE, g (callE .readMem [hlE])]]
  | .indexed x => fragment fun h =>
    [locationS x h, callS .writeMem [tmpE .location, g (callE .readMem [tmpE .location])]]
  | _ => violation c

/-- `RES b` (R367). -/
def resT (b : Fin 8) (dst : Desc) : Synth := modifyBitT (.res b dst) (fun v => andE v (xorE (numLit 0xFF) (.bit b))) dst

/-- `SET b` (R368). -/
def setT (b : Fin 8) (dst : Desc) : Synth := modifyBitT (.set b dst) (fun v => orE v (.bit b)) dst

/-! ## Control transfer, stack and exchange templates -/

/-- `flags & mask <cmp> 0` (30_encoding.md R105, 48_control_stack.md R386). -/
def condE (cc : Cond) : Expr :=
  let t (mask : Int) (op : BinOp) : Expr := .binary op (andE (regE .f) (numLit mask)) (numLit 0)
  match cc with
  | .nz => t 0x40 .eq
  | .z => t 0x40 .ne
  | .nc => t 0x01 .eq
  | .c => t 0x01 .ne
  | .po => t 0x04 .eq
  | .pe => t 0x04 .ne
  | .p => t 0x80 .eq
  | .m => t 0x80 .ne

/-- The condition of `JR cc`. -/
def relCondE : RelCond → Expr
  | .nz => condE .nz
  | .z => condE .z
  | .nc => condE .nc
  | .c => condE .c

/-- The end of a taken branch: `pc <- t` and the mandatory `Return` (48_control_stack.md R385). -/
def branch (pre : List Stmt) (t : Expr) : List Stmt := pre ++ [setPc t, .ret none]

/-- An unconditional transfer, or `If(flags & mask <cmp> 0) { effect; pc <- t; Return }` (R385). -/
def transfer (test : Option Expr) (body : Holes → List Stmt) : Synth :=
  fragment fun h =>
    match test with
    | none => body h
    | some t => [ifS t (body h)]

/-- The body of `JP` (R388, R389): the target as it is. -/
def jpBody (h : Holes) : List Stmt := branch [] (numLit h.target)

/-- The body of `JR` (R392, R393): the target re-based. -/
def jrBody (h : Holes) : List Stmt := branch [] (rebaseE (numLit h.target))

/-- The body of `CALL` and `RST` (R395, R396, R399): the re-based return address pushed, the target as it is. -/
def callBody (h : Holes) : List Stmt := branch [callS .push1 [rebaseE (numLit h.nextAddress)]] (numLit h.target)

/-- The body of `RET` (R397, R398). -/
def retBody : List Stmt := branch [.varDecl .temp (callE .readMemWord [regE .sp]), bumpSp 2] (tmpE .temp)

/-- `DJNZ` (R394). -/
def djnzT : Synth :=
  fragment fun h => [setReg .b (andE (subE (regE .b) (numLit 1)) (numLit 0xFF)),
    ifS (.binary .ne (regE .b) (numLit 0)) (jrBody h)]

/-- `JP (HL)` and `JP (XY)` (R390, R391). -/
def jpPairT (dst : Desc) : Synth :=
  match dst with
  | .pair p => if p.isPointer then constant (branch [] (callE (.getPair p) [])) else violation (.jpPair dst)
  | _ => violation (.jpPair dst)

/-- `PUSH` (R410, R411), by `push2(h, l)`. -/
def pushT (src : Desc) : Synth :=
  match src with
  | .pair p => constant [callS .push2 [regE p.halves.1, regE p.halves.2]]
  | _ => violation (.push src)

/-- `POP` (R412, R413). -/
def popT (dst : Desc) : Synth :=
  match dst with
  | .pair p => constant (setPair16 p (callE .readMemWord [regE .sp]) ++ [bumpSp 2])
  | _ => violation (.pop dst)

/-- `EX (SP),HL` and `EX (SP),XY` (R417, R418). -/
def exSpT (reg : Desc) : Synth :=
  match reg with
  | .pair p =>
    if p.isPointer then
      constant [.varDecl .temp (callE .readMemWord [regE .sp]),
        callS .writeMem [regE .sp, regE p.halves.2],
        callS .writeMem [andE (addE (regE .sp) (numLit 1)) (numLit 0xFFFF), regE p.halves.1],
        setReg p.halves.2 (andE (tmpE .temp) (numLit 0xFF)), setReg p.halves.1 (shrE (tmpE .temp) 8)]
    else violation (.exSp reg)
  | _ => violation (.exSp reg)

/-- `HALT` (49_misc.md R434, R435): `tstates = 0` stands in the fragment exactly when `HALT_SPEEDUP` is enabled. -/
def haltT (speedup : Bool) : Synth :=
  fragment fun h =>
    (if speedup then [.exprStmt (.assign .set (.identifier (.env .tstates)) (numLit 0))] else [])
      ++ branch [] (rebaseE (andE (subE (numLit h.nextAddress) (numLit 1)) (numLit 0xFFFF)))

/-! ## A call carried out -/

/-- The template of a call, built with the launch parameters `cfg`, or the violation it raises (60_exceptions.md R450). -/
def buildCall (cfg : Params) : Call → Synth
  | .ld8 dst src => ld8T cfg.undoc dst src
  | .ldWriteMem dst src => ldWriteMemT dst src
  | .ld8D dst src => ld8DT dst src
  | .ld16 dst src => ld16T dst src
  | .ldSp src => ldSpT src
  | .ldNn src => ldNnT src
  | .alu op src => aluT op src
  | .logical op src => logicT cfg.undoc op src
  | .inc8 dst => countT (.inc8 dst) .inc8 .incMem dst
  | .dec8 dst => countT (.dec8 dst) .dec8 .decMem dst
  | .inc16 dst => inc16T dst
  | .dec16 dst => dec16T dst
  | .add16 dst src => add16T dst src
  | .adc16 src => adc16T src
  | .sbc16 src => sbc16T src
  | .accRotate op => constant [callS op.prim []]
  | .cb op dst => generateCb op dst
  | .indexCb op dst mirror => generateIndexCb op dst mirror
  | .bit b src => bitT cfg.undoc b src
  | .res b dst => resT b dst
  | .set b dst => setT b dst
  | .jp cc => transfer (cc.map condE) jpBody
  | .jpPair dst => jpPairT dst
  | .jr cc => transfer (cc.map relCondE) jrBody
  | .djnz => djnzT
  | .call cc => transfer (cc.map condE) callBody
  | .rst => transfer none callBody
  | .ret cc => transfer (cc.map condE) fun _ => retBody
  | .push src => pushT src
  | .pop dst => popT dst
  | .exDeHl => constant (swap .d .h ++ swap .e .l)
  | .exAfAf => constant (swap .a .a' ++ swap .f .f')
  | .exx => constant (swap .b .b' ++ swap .c .c' ++ swap .d .d' ++ swap .e .e' ++ swap .h .h' ++ swap .l .l')
  | .exSp reg => exSpT reg
  | .neg => constant [.varDecl .temp (regE .a), setReg .a (numLit 0), callS .subA [tmpE .temp]]
  | .daa => constant [callS .daa []]
  | .cpl => constant [callS .cplA []]
  | .scf => constant [setReg .f (orE (orE (andE (regE .f) (numLit 0xC4)) (numLit 0x01)) (drawE 0x28))]
  | .ccf => constant [callS .ccf []]
  | .nop => constant []
  | .halt => haltT cfg.haltSpeedup

end Sys2Proof.Machine
end

