-- ==== Sys2Proof/Machine/Table.lean ====
section
/-! DEFINITION. The opcode table (60_exceptions.md R450, R454; 70_reset_and_hazards.md R482): the assignment of the rows of
opcode_table.json to template calls (30_encoding.md R123), the assembly of the whole table, and the fragment of an instruction. -/

namespace Sys2Proof.Machine

/-! ## The assignment of rows to templates -/

/-- A register of the 8-bit field as an IR register. -/
def Reg8.ir : Reg8 → IrReg
  | .b => .b
  | .c => .c
  | .d => .d
  | .e => .e
  | .h => .h
  | .l => .l
  | .a => .a

/-- A half of an index register as an IR register. -/
def halfIr : IndexReg → IndexHalf → IrReg
  | .ix, .high => .ixh
  | .ix, .low => .ixl
  | .iy, .high => .iyh
  | .iy, .low => .iyl

/-- A register of `LD ρ,ρ'` as an IR register. -/
def rhoIr (x : IndexReg) : Rho → IrReg
  | .b => .b
  | .c => .c
  | .d => .d
  | .e => .e
  | .xh => halfIr x .high
  | .xl => halfIr x .low
  | .a => .a

/-- A `dd` / `ss` pair as a descriptor. -/
def pairDesc : RegPair → Desc
  | .bc => .pair .bc
  | .de => .pair .de
  | .hl => .pair .hl
  | .sp => .sp

/-- A `ppx` pair as a descriptor. -/
def indexAddDesc (x : IndexReg) : IndexAddPair → Desc
  | .bc => .pair .bc
  | .de => .pair .de
  | .xy => .pair (IndexReg.irPair x)
  | .sp => .sp

/-- A `qq` pair as an IR pair. -/
def stackIr : StackPair → IrPair
  | .bc => .bc
  | .de => .de
  | .hl => .hl
  | .af => .af

/-- The address pair of field `q`. -/
def ptrIr : PtrPair → IrPair
  | .bc => .bc
  | .de => .de

/-- The template call of a row. 30_encoding.md R123 assigns most rows a family; the rows it does not list are assigned by the shapes
of 42_load.md R220 and the family's name: `LD r,(HL)`, `LD A,(BC)`, `LD A,(DE)`, `LD A,(nn)`, `LD I,A`, `LD R,A` and the loads of an
index half to `LD8`; `LD (HL),n`, `LD (XY+d),r` and `LD (XY+d),n` to `LD_WRITE_MEM`; `LD XY,nn`, `LD XY,(nn)` and `LD dd,(nn)` to
`LD16`; the accumulator rotates and `NOP` to families of their own. DESIGN CHOICE, safe: log entry 29. -/
def callOf : Instr → Call
  | .nop => .nop
  | .ldRR dst src => .ld8 (.reg (Reg8.ir dst)) (.reg (Reg8.ir src))
  | .ldRN dst _ => .ld8 (.reg (Reg8.ir dst)) .imm8
  | .ldRHl dst => .ld8 (.reg (Reg8.ir dst)) (.memPair .hl)
  | .ldHlR r => .ldWriteMem (.memPair .hl) (.reg (Reg8.ir r))
  | .ldHlN _ => .ldWriteMem (.memPair .hl) .imm8
  | .ldAPtr q => .ld8 (.reg .a) (.memPair (ptrIr q))
  | .ldAAbs _ => .ld8 (.reg .a) .direct
  | .ldPtrA q => .ldWriteMem (.memPair (ptrIr q)) (.reg .a)
  | .ldAbsA _ => .ldWriteMem .direct (.reg .a)
  | .ldDdNn p _ => .ld16 (pairDesc p) .imm16
  | .ldHlAbs _ => .ld16 (.pair .hl) .direct
  | .ldAbsHl _ => .ldNn (.pair .hl)
  | .ldSpHl => .ldSp (.pair .hl)
  | .pushQq p => .push (.pair (stackIr p))
  | .popQq p => .pop (.pair (stackIr p))
  | .exDeHl => .exDeHl
  | .exAfAf => .exAfAf
  | .exx => .exx
  | .exSpHl => .exSp (.pair .hl)
  | .addR r => .alu .add (.reg (Reg8.ir r))
  | .addN _ => .alu .add .imm8
  | .addHl => .alu .add (.memPair .hl)
  | .adcR r => .alu .adc (.reg (Reg8.ir r))
  | .adcN _ => .alu .adc .imm8
  | .adcHl => .alu .adc (.memPair .hl)
  | .subR r => .alu .sub (.reg (Reg8.ir r))
  | .subN _ => .alu .sub .imm8
  | .subHl => .alu .sub (.memPair .hl)
  | .sbcR r => .alu .sbc (.reg (Reg8.ir r))
  | .sbcN _ => .alu .sbc .imm8
  | .sbcHl => .alu .sbc (.memPair .hl)
  | .andR r => .logical .and (.reg (Reg8.ir r))
  | .andN _ => .logical .and .imm8
  | .andHl => .logical .and (.memPair .hl)
  | .xorR r => .logical .xor (.reg (Reg8.ir r))
  | .xorN _ => .logical .xor .imm8
  | .xorHl => .logical .xor (.memPair .hl)
  | .orR r => .logical .or (.reg (Reg8.ir r))
  | .orN _ => .logical .or .imm8
  | .orHl => .logical .or (.memPair .hl)
  | .cpR r => .alu .cp (.reg (Reg8.ir r))
  | .cpN _ => .alu .cp .imm8
  | .cpHl => .alu .cp (.memPair .hl)
  | .incR r => .inc8 (.reg (Reg8.ir r))
  | .incHl => .inc8 (.memPair .hl)
  | .decR r => .dec8 (.reg (Reg8.ir r))
  | .decHl => .dec8 (.memPair .hl)
  | .addHlSs p => .add16 (.pair .hl) (pairDesc p)
  | .incSs p => .inc16 (pairDesc p)
  | .decSs p => .dec16 (pairDesc p)
  | .rlca => .accRotate .rlca
  | .rrca => .accRotate .rrca
  | .rla => .accRotate .rla
  | .rra => .accRotate .rra
  | .daa => .daa
  | .cpl => .cpl
  | .scf => .scf
  | .ccf => .ccf
  | .halt => .halt
  | .jpNn _ => .jp none
  | .jpCc cc _ => .jp (some cc)
  | .jpHl => .jpPair (.pair .hl)
  | .jrE _ => .jr none
  | .jrCc cc _ => .jr (some cc)
  | .djnz _ => .djnz
  | .callNn _ => .call none
  | .callCc cc _ => .call (some cc)
  | .ret => .ret none
  | .retCc cc => .ret (some cc)
  | .rst _ => .rst
  | .rlcR r => .cb .rlc (.reg (Reg8.ir r))
  | .rlcHl => .cb .rlc (.memPair .hl)
  | .rrcR r => .cb .rrc (.reg (Reg8.ir r))
  | .rrcHl => .cb .rrc (.memPair .hl)
  | .rlR r => .cb .rl (.reg (Reg8.ir r))
  | .rlHl => .cb .rl (.memPair .hl)
  | .rrR r => .cb .rr (.reg (Reg8.ir r))
  | .rrHl => .cb .rr (.memPair .hl)
  | .slaR r => .cb .sla (.reg (Reg8.ir r))
  | .slaHl => .cb .sla (.memPair .hl)
  | .sraR r => .cb .sra (.reg (Reg8.ir r))
  | .sraHl => .cb .sra (.memPair .hl)
  | .sllR r => .cb .sll (.reg (Reg8.ir r))
  | .sllHl => .cb .sll (.memPair .hl)
  | .srlR r => .cb .srl (.reg (Reg8.ir r))
  | .srlHl => .cb .srl (.memPair .hl)
  | .bitR b r => .bit b (.reg (Reg8.ir r))
  | .bitHl b => .bit b (.memPair .hl)
  | .resR b r => .res b (.reg (Reg8.ir r))
  | .resHl b => .res b (.memPair .hl)
  | .setR b r => .set b (.reg (Reg8.ir r))
  | .setHl b => .set b (.memPair .hl)
  | .ldDdAbs p _ => .ld16 (pairDesc p) .direct
  | .ldAbsDd p _ => .ldNn (pairDesc p)
  | .adcHlSs p => .adc16 (pairDesc p)
  | .sbcHlSs p => .sbc16 (pairDesc p)
  | .neg => .neg
  | .ldIA => .ld8 (.reg .i) (.reg .a)
  | .ldRefreshA => .ld8 (.reg .r) (.reg .a)
  | .ldAI => .ld8 (.reg .a) (.reg .i)
  | .ldARefresh => .ld8 (.reg .a) (.reg .r)
  | .ldXyNn x _ => .ld16 (.pair (IndexReg.irPair x)) .imm16
  | .ldXyAbs x _ => .ld16 (.pair (IndexReg.irPair x)) .direct
  | .ldAbsXy x _ => .ldNn (.pair (IndexReg.irPair x))
  | .ldSpXy x => .ldSp (.pair (IndexReg.irPair x))
  | .pushXy x => .push (.pair (IndexReg.irPair x))
  | .popXy x => .pop (.pair (IndexReg.irPair x))
  | .exSpXy x => .exSp (.pair (IndexReg.irPair x))
  | .incXy x => .inc16 (.pair (IndexReg.irPair x))
  | .decXy x => .dec16 (.pair (IndexReg.irPair x))
  | .addXyPp x p => .add16 (.pair (IndexReg.irPair x)) (indexAddDesc x p)
  | .jpXy x => .jpPair (.pair (IndexReg.irPair x))
  | .ldRXd r x _ => .ld8D (.reg (Reg8.ir r)) (.indexed x)
  | .ldXdR x _ r => .ldWriteMem (.indexed x) (.reg (Reg8.ir r))
  | .ldXdN x _ _ => .ldWriteMem (.indexed x) .imm8
  | .addXd x _ => .alu .add (.indexed x)
  | .addXh x u => .alu .add (.reg (halfIr x u))
  | .adcXd x _ => .alu .adc (.indexed x)
  | .adcXh x u => .alu .adc (.reg (halfIr x u))
  | .subXd x _ => .alu .sub (.indexed x)
  | .subXh x u => .alu .sub (.reg (halfIr x u))
  | .sbcXd x _ => .alu .sbc (.indexed x)
  | .sbcXh x u => .alu .sbc (.reg (halfIr x u))
  | .andXd x _ => .logical .and (.indexed x)
  | .andXh x u => .logical .and (.reg (halfIr x u))
  | .xorXd x _ => .logical .xor (.indexed x)
  | .xorXh x u => .logical .xor (.reg (halfIr x u))
  | .orXd x _ => .logical .or (.indexed x)
  | .orXh x u => .logical .or (.reg (halfIr x u))
  | .cpXd x _ => .alu .cp (.indexed x)
  | .cpXh x u => .alu .cp (.reg (halfIr x u))
  | .incXd x _ => .inc8 (.indexed x)
  | .decXd x _ => .dec8 (.indexed x)
  | .ldRho x t s => .ld8 (.reg (rhoIr x t)) (.reg (rhoIr x s))
  | .ldXhN x u _ => .ld8 (.reg (halfIr x u)) .imm8
  | .incXh x u => .inc8 (.reg (halfIr x u))
  | .decXh x u => .dec8 (.reg (halfIr x u))
  | .rlcXd x _ => .indexCb .rlc (.indexed x) none
  | .rlcXdR x _ r => .indexCb .rlc (.indexed x) (some (.reg (Reg8.ir r)))
  | .rrcXd x _ => .indexCb .rrc (.indexed x) none
  | .rrcXdR x _ r => .indexCb .rrc (.indexed x) (some (.reg (Reg8.ir r)))
  | .rlXd x _ => .indexCb .rl (.indexed x) none
  | .rlXdR x _ r => .indexCb .rl (.indexed x) (some (.reg (Reg8.ir r)))
  | .rrXd x _ => .indexCb .rr (.indexed x) none
  | .rrXdR x _ r => .indexCb .rr (.indexed x) (some (.reg (Reg8.ir r)))
  | .slaXd x _ => .indexCb .sla (.indexed x) none
  | .slaXdR x _ r => .indexCb .sla (.indexed x) (some (.reg (Reg8.ir r)))
  | .sraXd x _ => .indexCb .sra (.indexed x) none
  | .sraXdR x _ r => .indexCb .sra (.indexed x) (some (.reg (Reg8.ir r)))
  | .sllXd x _ => .indexCb .sll (.indexed x) none
  | .sllXdR x _ r => .indexCb .sll (.indexed x) (some (.reg (Reg8.ir r)))
  | .srlXd x _ => .indexCb .srl (.indexed x) none
  | .srlXdR x _ r => .indexCb .srl (.indexed x) (some (.reg (Reg8.ir r)))
  | .bitXd b x _ => .bit b (.indexed x)
  | .resXd b x _ => .res b (.indexed x)
  | .setXd b x _ => .set b (.indexed x)

/-- The template of a row, the table being built with the launch parameters `cfg`. -/
def synth (cfg : Params) (i : Instr) : Synth := buildCall cfg (callOf i)

/-! ## The opcode table -/

/-- The instruction with its operand bytes zero: the table has one entry for each sequence of opcode bytes. -/
def Instr.key : Instr → Instr
  | .ldRN r _ => .ldRN r 0
  | .ldHlN _ => .ldHlN 0
  | .ldAAbs _ => .ldAAbs 0
  | .ldAbsA _ => .ldAbsA 0
  | .ldDdNn p _ => .ldDdNn p 0
  | .ldHlAbs _ => .ldHlAbs 0
  | .ldAbsHl _ => .ldAbsHl 0
  | .addN _ => .addN 0
  | .adcN _ => .adcN 0
  | .subN _ => .subN 0
  | .sbcN _ => .sbcN 0
  | .andN _ => .andN 0
  | .xorN _ => .xorN 0
  | .orN _ => .orN 0
  | .cpN _ => .cpN 0
  | .jpNn _ => .jpNn 0
  | .jpCc cc _ => .jpCc cc 0
  | .jrE _ => .jrE 0
  | .jrCc cc _ => .jrCc cc 0
  | .djnz _ => .djnz 0
  | .callNn _ => .callNn 0
  | .callCc cc _ => .callCc cc 0
  | .ldDdAbs p _ => .ldDdAbs p 0
  | .ldAbsDd p _ => .ldAbsDd p 0
  | .ldXyNn x _ => .ldXyNn x 0
  | .ldXyAbs x _ => .ldXyAbs x 0
  | .ldAbsXy x _ => .ldAbsXy x 0
  | .ldRXd r x _ => .ldRXd r x 0
  | .ldXdR x _ r => .ldXdR x 0 r
  | .ldXdN x _ _ => .ldXdN x 0 0
  | .ldXhN x u _ => .ldXhN x u 0
  | .addXd x _ => .addXd x 0
  | .adcXd x _ => .adcXd x 0
  | .subXd x _ => .subXd x 0
  | .sbcXd x _ => .sbcXd x 0
  | .andXd x _ => .andXd x 0
  | .xorXd x _ => .xorXd x 0
  | .orXd x _ => .orXd x 0
  | .cpXd x _ => .cpXd x 0
  | .incXd x _ => .incXd x 0
  | .decXd x _ => .decXd x 0
  | .rlcXd x _ => .rlcXd x 0
  | .rlcXdR x _ r => .rlcXdR x 0 r
  | .rrcXd x _ => .rrcXd x 0
  | .rrcXdR x _ r => .rrcXdR x 0 r
  | .rlXd x _ => .rlXd x 0
  | .rlXdR x _ r => .rlXdR x 0 r
  | .rrXd x _ => .rrXd x 0
  | .rrXdR x _ r => .rrXdR x 0 r
  | .slaXd x _ => .slaXd x 0
  | .slaXdR x _ r => .slaXdR x 0 r
  | .sraXd x _ => .sraXd x 0
  | .sraXdR x _ r => .sraXdR x 0 r
  | .sllXd x _ => .sllXd x 0
  | .sllXdR x _ r => .sllXdR x 0 r
  | .srlXd x _ => .srlXd x 0
  | .srlXdR x _ r => .srlXdR x 0 r
  | .bitXd b x _ => .bitXd b x 0
  | .resXd b x _ => .resXd b x 0
  | .setXd b x _ => .setXd b x 0
  | i => i

/-- Every byte. -/
def allBytes : List Byte := (List.range 256).map (BitVec.ofNat 8)

/-- The byte is a prefix (30_encoding.md R101). -/
def isPrefixByte (b : Byte) : Bool := b == 0xCB || b == 0xED || b == 0xDD || b == 0xFD

/-- The first, second and fourth bytes of every sequence of prefix and opcode bytes (R101), the bytes not used zero. -/
def opcodeBytes : List (Byte × Byte × Byte) :=
  (allBytes.filter fun op => !isPrefixByte op).map (fun op => (op, 0, 0))
    ++ allBytes.map (fun op => (0xCB, op, 0)) ++ allBytes.map (fun op => (0xED, op, 0))
    ++ (allBytes.filter fun op => op != 0xCB).map (fun op => (0xDD, op, 0))
    ++ (allBytes.filter fun op => op != 0xCB).map (fun op => (0xFD, op, 0))
    ++ allBytes.map (fun op => (0xDD, 0xCB, op)) ++ allBytes.map (fun op => (0xFD, 0xCB, op))

/-- The instructions the table assembler walks: those its opcode bytes decode to (30_encoding.md R120). -/
def opcodeKeys : List Instr :=
  opcodeBytes.filterMap fun b =>
    match decode b.1 b.2.1 0 b.2.2 with
    | .ok i => some i
    | .error _ => none

/-- The opcode table: a template for each instruction with operand bytes zero. -/
abbrev OpcodeTable := List (Instr × Template)

/-- The table assembled from the results of its calls, in order: the first violation aborts it, and no partial table results
(60_exceptions.md R450). -/
def assemble : List (Instr × Synth) → Except ContractViolation OpcodeTable
  | [] => .ok []
  | (_, .error v) :: _ => .error v
  | (i, .ok t) :: rest =>
    match assemble rest with
    | .error v => .error v
    | .ok table => .ok ((i, t) :: table)

/-- The opcode table built with the launch parameters `cfg`, once, before the first step (70_reset_and_hazards.md R482). -/
def buildTable (cfg : Params) : Except ContractViolation OpcodeTable :=
  assemble (opcodeKeys.map fun i => (i, synth cfg i))

/-! ## The values of the holes -/

/-- The decoded `value` of an instruction: its immediate (30_encoding.md R107). -/
def immediate : Instr → Nat
  | .ldRN _ n => n.toNat
  | .ldHlN n => n.toNat
  | .ldAAbs nn => nn.toNat
  | .ldAbsA nn => nn.toNat
  | .ldDdNn _ nn => nn.toNat
  | .ldHlAbs nn => nn.toNat
  | .ldAbsHl nn => nn.toNat
  | .addN n => n.toNat
  | .adcN n => n.toNat
  | .subN n => n.toNat
  | .sbcN n => n.toNat
  | .andN n => n.toNat
  | .xorN n => n.toNat
  | .orN n => n.toNat
  | .cpN n => n.toNat
  | .jpNn nn => nn.toNat
  | .jpCc _ nn => nn.toNat
  | .callNn nn => nn.toNat
  | .callCc _ nn => nn.toNat
  | .ldDdAbs _ nn => nn.toNat
  | .ldAbsDd _ nn => nn.toNat
  | .ldXyNn _ nn => nn.toNat
  | .ldXyAbs _ nn => nn.toNat
  | .ldAbsXy _ nn => nn.toNat
  | .ldXdN _ _ n => n.toNat
  | .ldXhN _ _ n => n.toNat
  | _ => 0

/-- The decoded `target` of an instruction (30_encoding.md R108). -/
def branchTarget (next : Word) : Instr → Nat
  | .jpNn nn => nn.toNat
  | .jpCc _ nn => nn.toNat
  | .callNn nn => nn.toNat
  | .callCc _ nn => nn.toNat
  | .jrE e => (addDisp next e).toNat
  | .jrCc _ e => (addDisp next e).toNat
  | .djnz e => (addDisp next e).toNat
  | .rst t => 8 * t.val
  | _ => 0

/-- The displacement byte of an indexed row (30_encoding.md R107). -/
def displacement : Instr → Byte
  | .ldRXd _ _ d => d
  | .ldXdR _ d _ => d
  | .ldXdN _ d _ => d
  | .addXd _ d => d
  | .adcXd _ d => d
  | .subXd _ d => d
  | .sbcXd _ d => d
  | .andXd _ d => d
  | .xorXd _ d => d
  | .orXd _ d => d
  | .cpXd _ d => d
  | .incXd _ d => d
  | .decXd _ d => d
  | .rlcXd _ d => d
  | .rlcXdR _ d _ => d
  | .rrcXd _ d => d
  | .rrcXdR _ d _ => d
  | .rlXd _ d => d
  | .rlXdR _ d _ => d
  | .rrXd _ d => d
  | .rrXdR _ d _ => d
  | .slaXd _ d => d
  | .slaXdR _ d _ => d
  | .sraXd _ d => d
  | .sraXdR _ d _ => d
  | .sllXd _ d => d
  | .sllXdR _ d _ => d
  | .srlXd _ d => d
  | .srlXdR _ d _ => d
  | .bitXd _ _ d => d
  | .resXd _ _ d => d
  | .setXd _ _ d => d
  | _ => 0

/-- The decoded values of an instruction whose next instruction is at `next` (40_ir_fold.md R171, 30_encoding.md R107). -/
def holesOf (next : Word) (i : Instr) : Holes :=
  { value := immediate i, target := branchTarget next i, nextAddress := next.toNat, displacement := s8 (displacement i) }

/-- The fragment of an instruction at a state, from the table built with the state's launch parameters; `none` where the table has no
entry, which is so of an instruction that is not well-formed only. No table, no fragment (60_exceptions.md R450). -/
def fragmentOf (s : State) (i : Instr) : Except ContractViolation (Option Fragment) :=
  match buildTable s.params with
  | .error v => .error v
  | .ok table => .ok ((table.lookup (Instr.key i)).map fun t => t (holesOf (s.nextAddress i.length) i))

/-- The effect of an instruction through its IR fragment (40_ir_fold.md R153). -/
def execIr (i : Instr) (s : State) : Except ContractViolation (Option (Outcome State)) :=
  (fragmentOf s i).map fun fr => fr.map (runFragment s i.length)

end Sys2Proof.Machine
end

