-- ==== Sys2Proof/Safety.lean ====
section
/-! DEFINITION. The terms in which claims are stated: the invariant of the data structures, the launch premises of
70_reset_and_hazards.md R484, the flags by name, and the operand forms that several instructions share. -/

namespace Sys2Proof.Machine

/-! ## Invariant and launch premises -/

/-- Memory and `written` are in their canonical forms, so equal memories are equal data. -/
def State.Inv (s : State) : Prop := Memory.wf s.mem = true ∧ addrsWf s.written = true

/-- `PageInRange` (70_reset_and_hazards.md R484; 10_state.md R44). -/
def State.PageInRange (s : State) : Prop := s.page < 4

/-- `CleanEntry` (R484, R480). -/
def State.CleanEntry (s : State) : Prop := s.status = .running ∧ s.written = []

/-- `NoFault` (R484): no step of the run from `s` records a fault or a refusal in `status`. A `stuck` step records nothing
(60_exceptions.md R455), so it does not break the premise. -/
def State.NoFault (s : State) : Prop :=
  ∀ (k : Nat) (t : State), core.run k s = .next t → t.status = .running →
    (∀ r : Refusal, (t.record (step t)).status ≠ .refused r) ∧ (∀ r : Fault, (t.record (step t)).status ≠ .faulted r)

/-- `TableBuilt` (R484; 60_exceptions.md R454): the opcode table is built without a contract violation. -/
def TableBuilt (cfg : Params) : Prop := ∃ table, buildTable cfg = .ok table

/-- The default configuration of 00_scope.md R8: every address readable and writable. -/
def State.allAccessible (s : State) : Prop := s.params.noRead = [] ∧ s.params.noWrite = []

/-! ## Flags -/

/-- The flags of `F` (10_state.md R34). -/
inductive Flag where
  | s | z | y | h | x | pv | n | c
  deriving DecidableEq, Repr

/-- The bit of a flag (R34). -/
def Flag.bit : Flag → Nat
  | .s => 7
  | .z => 6
  | .y => 5
  | .h => 4
  | .x => 3
  | .pv => 2
  | .n => 1
  | .c => 0

/-- `F.<flag>` as a truth value. -/
def State.flag (s : State) (fl : Flag) : Bool := s.f.getLsbD fl.bit

/-- `S`, `Z`, `H`, `PV`, `N` and `C` of `t.f`, in the order of R34 (bits 5 and 3 apart). -/
def State.FlagsAre (t : State) (s z h pv n c : Bool) : Prop :=
  t.flag .s = s ∧ t.flag .z = z ∧ t.flag .h = h ∧ t.flag .pv = pv ∧ t.flag .n = n ∧ t.flag .c = c

/-- How many bits of a byte are 1. -/
def onesOf (v : Byte) : Nat := ((List.range 8).filter fun k => v.getLsbD k).length

/-- Bits 5 and 3 of `t.f` are `XY(src)` at the state `s` (41_alu_flags.md R180): copied from `src` under `Z80`, and the next free
value's under `DRAW`, which is then counted. -/
def XyFrom (s t : State) (src : Byte) : Prop :=
  match s.params.undoc with
  | .z80 => t.f &&& 0x28 = src &&& 0x28 ∧ t.draws = s.draws
  | .draw => t.f &&& 0x28 = Config.freeByte s.draws &&& 0x28 ∧ t.draws = s.draws + 1

/-- Bits 5 and 3 of `t.f` are `XYdraw` at the state `s` (R180). -/
def XyDrawn (s t : State) : Prop :=
  t.f &&& 0x28 = Config.freeByte s.draws &&& 0x28 ∧ t.draws = s.draws + 1

/-! ## Operand forms -/

/-- `t` differs from `s` at most in the seven registers of `reg8`. -/
def OnlyReg8s (s t : State) : Prop :=
  t = { s with a := t.a, b := t.b, c := t.c, d := t.d, e := t.e, h := t.h, l := t.l }

/-- `t` differs from `s` at most in the index halves. -/
def OnlyHalves (s t : State) : Prop := t = { s with ixh := t.ixh, ixl := t.ixl, iyh := t.iyh, iyl := t.iyl }

/-- `t` differs from `s` at most in the registers of `LD ρ,ρ'`. -/
def OnlyRhos (s t : State) : Prop :=
  t = { s with
    a := t.a, b := t.b, c := t.c, d := t.d, e := t.e, ixh := t.ixh, ixl := t.ixl, iyh := t.iyh, iyl := t.iyl }

/-- `t` differs from `s` at most in `BC`, `DE`, `HL` and `SP`. -/
def OnlyPairs (s t : State) : Prop :=
  t = { s with b := t.b, c := t.c, d := t.d, e := t.e, h := t.h, l := t.l, sp := t.sp }

/-- `t` differs from `s` at most in `BC`, `DE`, `HL` and `AF`. -/
def OnlyStackPairs (s t : State) : Prop :=
  t = { s with a := t.a, f := t.f, b := t.b, c := t.c, d := t.d, e := t.e, h := t.h, l := t.l }

/-- The accumulator operations of 43_arith8.md R270. -/
inductive AluOp where
  | add | adc | sub | sbc | and | xor | or | cp
  deriving DecidableEq, Repr

/-- The five source forms of R270. -/
inductive Source8 where
  | reg (r : Reg8)
  | imm (n : Byte)
  | mem
  | idx (x : IndexReg) (d : Byte)
  | half (x : IndexReg) (u : IndexHalf)
  deriving DecidableEq, Repr

/-- `src8` (R270). -/
def Source8.value (s : State) : Source8 → Byte
  | .reg r => s.reg8 r
  | .imm n => n
  | .mem => s.readByte s.hl
  | .idx x d => s.readByte (s.indexed x d)
  | .half x u => s.half x u

/-- The address that a memory form reads. -/
def Source8.address (s : State) : Source8 → Option Word
  | .mem => some s.hl
  | .idx x d => some (s.indexed x d)
  | .reg _ | .imm _ | .half _ _ => none

/-- The operand can be read (20_memory.md R78). -/
def Source8.readable (s : State) (o : Source8) : Bool :=
  match o.address s with
  | some a => s.canRead a
  | none => true

/-- The length of the instruction (30_encoding.md R101). -/
def Source8.length : Source8 → Nat
  | .reg _ | .mem => 1
  | .imm _ | .half _ _ => 2
  | .idx _ _ => 3

/-- The instruction of an accumulator operation and a source form. -/
def aluInstr : AluOp → Source8 → Instr
  | .add, .reg r => .addR r
  | .add, .imm n => .addN n
  | .add, .mem => .addHl
  | .add, .idx x d => .addXd x d
  | .add, .half x u => .addXh x u
  | .adc, .reg r => .adcR r
  | .adc, .imm n => .adcN n
  | .adc, .mem => .adcHl
  | .adc, .idx x d => .adcXd x d
  | .adc, .half x u => .adcXh x u
  | .sub, .reg r => .subR r
  | .sub, .imm n => .subN n
  | .sub, .mem => .subHl
  | .sub, .idx x d => .subXd x d
  | .sub, .half x u => .subXh x u
  | .sbc, .reg r => .sbcR r
  | .sbc, .imm n => .sbcN n
  | .sbc, .mem => .sbcHl
  | .sbc, .idx x d => .sbcXd x d
  | .sbc, .half x u => .sbcXh x u
  | .and, .reg r => .andR r
  | .and, .imm n => .andN n
  | .and, .mem => .andHl
  | .and, .idx x d => .andXd x d
  | .and, .half x u => .andXh x u
  | .xor, .reg r => .xorR r
  | .xor, .imm n => .xorN n
  | .xor, .mem => .xorHl
  | .xor, .idx x d => .xorXd x d
  | .xor, .half x u => .xorXh x u
  | .or, .reg r => .orR r
  | .or, .imm n => .orN n
  | .or, .mem => .orHl
  | .or, .idx x d => .orXd x d
  | .or, .half x u => .orXh x u
  | .cp, .reg r => .cpR r
  | .cp, .imm n => .cpN n
  | .cp, .mem => .cpHl
  | .cp, .idx x d => .cpXd x d
  | .cp, .half x u => .cpXh x u

/-- A register place that an instruction reads and writes: one of `reg8`, or an index half. -/
inductive Place8 where
  | reg (r : Reg8)
  | half (x : IndexReg) (u : IndexHalf)
  deriving DecidableEq, Repr

/-- The byte in a register place. -/
def Place8.value (s : State) : Place8 → Byte
  | .reg r => s.reg8 r
  | .half x u => s.half x u

/-- A register place written. -/
def Place8.set (s : State) (v : Byte) : Place8 → State
  | .reg r => s.setReg8 r v
  | .half x u => s.setHalf x u v

/-- The length of `INC` or `DEC` of a register place. -/
def Place8.length : Place8 → Nat
  | .reg _ => 1
  | .half _ _ => 2

/-- `INC` of a register place (43_arith8.md R276). -/
def incPlace : Place8 → Instr
  | .reg r => .incR r
  | .half x u => .incXh x u

/-- `DEC` of a register place (R277). -/
def decPlace : Place8 → Instr
  | .reg r => .decR r
  | .half x u => .decXh x u

/-- A memory place of one byte: `(HL)` or `(XY+d)`. -/
inductive Mem8 where
  | hl
  | idx (x : IndexReg) (d : Byte)
  deriving DecidableEq, Repr

/-- The address of a memory place (20_memory.md R81). -/
def Mem8.address (s : State) : Mem8 → Word
  | .hl => s.hl
  | .idx x d => s.indexed x d

/-- `INC` of a memory place (43_arith8.md R276). -/
def incMem : Mem8 → Instr
  | .hl => .incHl
  | .idx x d => .incXd x d

/-- `DEC` of a memory place (R277). -/
def decMem : Mem8 → Instr
  | .hl => .decHl
  | .idx x d => .decXd x d

/-- The length of `INC` or `DEC` of a memory place. -/
def Mem8.countLength : Mem8 → Nat
  | .hl => 1
  | .idx _ _ => 3

/-- The length of a `CB` instruction on a memory place. -/
def Mem8.cbLength : Mem8 → Nat
  | .hl => 2
  | .idx _ _ => 4

/-- The stores of one byte (42_load.md R225, R226, R228, R229, R236, R237). -/
inductive ByteStore where
  | hlReg (r : Reg8)
  | hlImm (n : Byte)
  | idxReg (x : IndexReg) (d : Byte) (r : Reg8)
  | idxImm (x : IndexReg) (d n : Byte)
  | ptrA (q : PtrPair)
  | absA (nn : Word)
  deriving DecidableEq, Repr

/-- The instruction of a store. -/
def ByteStore.instr : ByteStore → Instr
  | .hlReg r => .ldHlR r
  | .hlImm n => .ldHlN n
  | .idxReg x d r => .ldXdR x d r
  | .idxImm x d n => .ldXdN x d n
  | .ptrA q => .ldPtrA q
  | .absA nn => .ldAbsA nn

/-- The address stored to (20_memory.md R81). -/
def ByteStore.address (s : State) : ByteStore → Word
  | .hlReg _ | .hlImm _ => s.hl
  | .idxReg x d _ | .idxImm x d _ => s.indexed x d
  | .ptrA .bc => s.bc
  | .ptrA .de => s.de
  | .absA nn => nn

/-- The byte stored; under a prefix `H` and `L` are the real registers (30_encoding.md R111). -/
def ByteStore.value (s : State) : ByteStore → Byte
  | .hlReg r | .idxReg _ _ r => s.reg8 r
  | .hlImm n | .idxImm _ _ n => n
  | .ptrA _ | .absA _ => s.a

/-- The length of a store (30_encoding.md R101). -/
def ByteStore.length : ByteStore → Nat
  | .hlReg _ | .ptrA _ => 1
  | .hlImm _ => 2
  | .idxReg _ _ _ | .absA _ => 3
  | .idxImm _ _ _ => 4

/-- The register form of a rotate or shift (46_rotate_shift.md R340). -/
def rotateReg : RotOp → Reg8 → Instr
  | .rlc, r => .rlcR r
  | .rrc, r => .rrcR r
  | .rl, r => .rlR r
  | .rr, r => .rrR r
  | .sla, r => .slaR r
  | .sra, r => .sraR r
  | .sll, r => .sllR r
  | .srl, r => .srlR r

/-- The memory forms of a rotate or shift (R340). -/
def rotateMem : RotOp → Mem8 → Instr
  | .rlc, .hl => .rlcHl
  | .rlc, .idx x d => .rlcXd x d
  | .rrc, .hl => .rrcHl
  | .rrc, .idx x d => .rrcXd x d
  | .rl, .hl => .rlHl
  | .rl, .idx x d => .rlXd x d
  | .rr, .hl => .rrHl
  | .rr, .idx x d => .rrXd x d
  | .sla, .hl => .slaHl
  | .sla, .idx x d => .slaXd x d
  | .sra, .hl => .sraHl
  | .sra, .idx x d => .sraXd x d
  | .sll, .hl => .sllHl
  | .sll, .idx x d => .sllXd x d
  | .srl, .hl => .srlHl
  | .srl, .idx x d => .srlXd x d

/-- The form with register copy of a rotate or shift (R340). -/
def rotateCopy : RotOp → IndexReg → Byte → Reg8 → Instr
  | .rlc, x, d, r => .rlcXdR x d r
  | .rrc, x, d, r => .rrcXdR x d r
  | .rl, x, d, r => .rlXdR x d r
  | .rr, x, d, r => .rrXdR x d r
  | .sla, x, d, r => .slaXdR x d r
  | .sra, x, d, r => .sraXdR x d r
  | .sll, x, d, r => .sllXdR x d r
  | .srl, x, d, r => .srlXdR x d r

/-- Bit `k` of the result of a rotate or shift, read from the table of 41_alu_flags.md R193. -/
def rotateBit (op : RotOp) (v : Byte) (cin : Bool) (k : Nat) : Bool :=
  match op with
  | .rlc => if k = 0 then v.getLsbD 7 else v.getLsbD (k - 1)
  | .rrc => if k = 7 then v.getLsbD 0 else v.getLsbD (k + 1)
  | .rl => if k = 0 then cin else v.getLsbD (k - 1)
  | .rr => if k = 7 then cin else v.getLsbD (k + 1)
  | .sla => if k = 0 then false else v.getLsbD (k - 1)
  | .sra => if k = 7 then v.getLsbD 7 else v.getLsbD (k + 1)
  | .sll => if k = 0 then true else v.getLsbD (k - 1)
  | .srl => if k = 7 then false else v.getLsbD (k + 1)

/-- The bit a rotate or shift moves out (R193). -/
def rotateOut (op : RotOp) (v : Byte) : Bool :=
  match op with
  | .rlc | .rl | .sla | .sll => v.getLsbD 7
  | .rrc | .rr | .sra | .srl => v.getLsbD 0

/-- The flags of the CB rotates and shifts (R193): `S`, `Z` and the parity of the result, `H = 0`, `N = 0`, the bit moved out. -/
def State.RotateFlags (t : State) (q : Byte) (out : Bool) : Prop :=
  t.FlagsAre (q.getLsbD 7) (decide (q = 0)) false (decide (onesOf q % 2 = 0)) false out

/-- `BIT b` of a memory place (47_bit.md R365). -/
def bitMemInstr (b : Fin 8) : Mem8 → Instr
  | .hl => .bitHl b
  | .idx x d => .bitXd b x d

/-- `RES b` of a memory place. -/
def resMemInstr (b : Fin 8) : Mem8 → Instr
  | .hl => .resHl b
  | .idx x d => .resXd b x d

/-- `SET b` of a memory place. -/
def setMemInstr (b : Fin 8) : Mem8 → Instr
  | .hl => .setHl b
  | .idx x d => .setXd b x d

/-- The eight rotates and shifts in the order of `ooo` (30_encoding.md R112). -/
def rotOpOfCode (ooo : Fin 8) : RotOp :=
  match ooo.val with
  | 0 => .rlc
  | 1 => .rrc
  | 2 => .rl
  | 3 => .rr
  | 4 => .sla
  | 5 => .sra
  | 6 => .sll
  | _ => .srl

/-- The correction of `DAA` (41_alu_flags.md R195). -/
def daaCorrection (s : State) : Byte :=
  (if s.flag .h || decide (9 < s.a.toNat % 16) then 0x06 else 0)
    ||| (if s.flag .c || decide (0x99 < s.a.toNat) then 0x60 else 0)

/-- Both nibbles are decimal digits. -/
def isPackedDecimal (v : Byte) : Bool := decide (v.toNat % 16 ≤ 9) && decide (v.toNat / 16 ≤ 9)

/-- The number two packed decimal digits stand for. -/
def decimalOf (v : Byte) : Nat := 10 * (v.toNat / 16) + v.toNat % 16

/-! ## Classes of instructions -/

/-- The instructions that write all or part of `F` (the first two columns of the second table of 10_state.md R35). -/
def writesFlags : Instr → Bool
  | .addR _ | .addN _ | .addHl | .addXd _ _ | .addXh _ _ => true
  | .adcR _ | .adcN _ | .adcHl | .adcXd _ _ | .adcXh _ _ => true
  | .subR _ | .subN _ | .subHl | .subXd _ _ | .subXh _ _ => true
  | .sbcR _ | .sbcN _ | .sbcHl | .sbcXd _ _ | .sbcXh _ _ => true
  | .andR _ | .andN _ | .andHl | .andXd _ _ | .andXh _ _ => true
  | .xorR _ | .xorN _ | .xorHl | .xorXd _ _ | .xorXh _ _ => true
  | .orR _ | .orN _ | .orHl | .orXd _ _ | .orXh _ _ => true
  | .cpR _ | .cpN _ | .cpHl | .cpXd _ _ | .cpXh _ _ => true
  | .incR _ | .incHl | .incXd _ _ | .incXh _ _ => true
  | .decR _ | .decHl | .decXd _ _ | .decXh _ _ => true
  | .neg | .daa | .cpl | .scf | .ccf => true
  | .rlcR _ | .rlcHl | .rlcXd _ _ | .rlcXdR _ _ _ => true
  | .rrcR _ | .rrcHl | .rrcXd _ _ | .rrcXdR _ _ _ => true
  | .rlR _ | .rlHl | .rlXd _ _ | .rlXdR _ _ _ => true
  | .rrR _ | .rrHl | .rrXd _ _ | .rrXdR _ _ _ => true
  | .slaR _ | .slaHl | .slaXd _ _ | .slaXdR _ _ _ => true
  | .sraR _ | .sraHl | .sraXd _ _ | .sraXdR _ _ _ => true
  | .sllR _ | .sllHl | .sllXd _ _ | .sllXdR _ _ _ => true
  | .srlR _ | .srlHl | .srlXd _ _ | .srlXdR _ _ _ => true
  | .rlca | .rrca | .rla | .rra => true
  | .adcHlSs _ | .sbcHlSs _ | .addHlSs _ | .addXyPp _ _ => true
  | .bitR _ _ | .bitHl _ | .bitXd _ _ _ => true
  | .ldAI | .ldARefresh | .exAfAf => true
  | .popQq p => p == .af
  | _ => false

/-- The instructions that write memory (20_memory.md R75: the rows with a write). -/
def writesMemory : Instr → Bool
  | .ldHlR _ | .ldHlN _ | .ldXdR _ _ _ | .ldXdN _ _ _ | .ldPtrA _ | .ldAbsA _ => true
  | .ldAbsHl _ | .ldAbsDd _ _ | .ldAbsXy _ _ => true
  | .incHl | .incXd _ _ | .decHl | .decXd _ _ => true
  | .rlcHl | .rlcXd _ _ | .rlcXdR _ _ _ => true
  | .rrcHl | .rrcXd _ _ | .rrcXdR _ _ _ => true
  | .rlHl | .rlXd _ _ | .rlXdR _ _ _ => true
  | .rrHl | .rrXd _ _ | .rrXdR _ _ _ => true
  | .slaHl | .slaXd _ _ | .slaXdR _ _ _ => true
  | .sraHl | .sraXd _ _ | .sraXdR _ _ _ => true
  | .sllHl | .sllXd _ _ | .sllXdR _ _ _ => true
  | .srlHl | .srlXd _ _ | .srlXdR _ _ _ => true
  | .resHl _ | .resXd _ _ _ | .setHl _ | .setXd _ _ _ => true
  | .pushQq _ | .pushXy _ | .callNn _ | .callCc _ _ | .rst _ => true
  | .exSpHl | .exSpXy _ => true
  | _ => false

/-- The instructions that reach the shadow set (10_state.md R36). -/
def reachesShadow : Instr → Bool
  | .exAfAf | .exx => true
  | _ => false

/-- The steps that apply `rebase` (60_exceptions.md R457). -/
def appliesRebase (s : State) : Instr → Bool
  | .jrE _ | .callNn _ | .rst _ | .halt => true
  | .jrCc cc _ => relCondHolds s.f cc
  | .callCc cc _ => condHolds s.f cc
  | .djnz _ => s.b != 1
  | _ => false

/-- The instructions that can write `SP` (10_state.md R47). -/
def writesSp : Instr → Bool
  | .ldDdNn p _ | .ldDdAbs p _ | .incSs p | .decSs p => p == .sp
  | .ldSpHl | .ldSpXy _ => true
  | .pushQq _ | .popQq _ | .pushXy _ | .popXy _ => true
  | .callNn _ | .callCc _ _ | .ret | .retCc _ | .rst _ => true
  | _ => false

/-- The index register an instruction can write (R47: the `DD`/`FD` forms). -/
def writesIndex : Instr → Option IndexReg
  | .ldXyNn x _ | .ldXyAbs x _ | .popXy x | .exSpXy x | .incXy x | .decXy x | .addXyPp x _ => some x
  | .ldRho x t _ => if t.isHalf then some x else none
  | .ldXhN x _ _ | .incXh x _ | .decXh x _ => some x
  | _ => none

/-- The end-of-run predicate (70_reset_and_hazards.md R486). -/
def State.AtFinal (s : State) : Prop :=
  s.status = .running ∧ s.page < 4 ∧ s.readByte s.pc = 0x76 ∧ rebase s.page s.pc = s.pc

/-- The instructions that test one bit (47_bit.md R366). -/
def isBitTest : Instr → Bool
  | .bitR _ _ | .bitHl _ | .bitXd _ _ _ => true
  | _ => false

/-- Two states that differ at most in the shadow set (R36). -/
def sameButShadow (s t : State) : Prop :=
  t = { s with a' := t.a', f' := t.f', b' := t.b', c' := t.c', d' := t.d', e' := t.e', h' := t.h', l' := t.l' }

/-- The shadow sets are equal. -/
def sameShadow (s t : State) : Prop :=
  s.a' = t.a' ∧ s.f' = t.f' ∧ s.b' = t.b' ∧ s.c' = t.c' ∧ s.d' = t.d' ∧ s.e' = t.e' ∧ s.h' = t.h' ∧ s.l' = t.l'

/-- The two bytes of a word in memory, the low byte first (20_memory.md R72). -/
def State.wordAt (s : State) (a : Word) : Word := join (s.readByte (a + 1)) (s.readByte a)

/-- Both bytes of a word can be read. -/
def State.canReadWord (s : State) (a : Word) : Bool := s.canRead a && s.canRead (a + 1)

/-- Both bytes of a word can be written. -/
def State.canWriteWord (s : State) (a : Word) : Bool := s.canWrite a && s.canWrite (a + 1)

/-- Memory holds `v` at `a`, every other byte is as before, and `written` has gained exactly `a` (20_memory.md R78, R88). -/
def StoredByte (s t : State) (a : Word) (v : Byte) : Prop :=
  t.readByte a = v ∧ (∀ k : Word, k ≠ a → t.readByte k = s.readByte k)
    ∧ ∀ n : Nat, n ∈ t.written ↔ n = a.toNat ∨ n ∈ s.written

/-- Memory holds `v` at `a` and `a + 1`, low byte first, every other byte is as before, and `written` has gained exactly those two
addresses. -/
def StoredWord (s t : State) (a : Word) (v : Word) : Prop :=
  t.readByte a = lo v ∧ t.readByte (a + 1) = hi v ∧ (∀ k : Word, k ≠ a → k ≠ a + 1 → t.readByte k = s.readByte k)
    ∧ ∀ n : Nat, n ∈ t.written ↔ n = a.toNat ∨ n = (a + 1).toNat ∨ n ∈ s.written

/-! ## IR evaluation -/

/-- The largest value that an assignment's target can hold: an 8-bit register, `SP` or `PC` (40_ir_fold.md R147), or a one-bit interrupt
flip-flop (10_state.md R42; that a larger value is a fault there is the model's choice, log entry 32). -/
def Target.limit : Target → Option Int
  | .register .sp | .register .pc | .identifier (.env .sp) | .identifier (.env .pc) => some 65535
  | .register .iff1 | .register .iff2 => some 1
  | .register _ => some 255
  | .identifier _ => none

/-- The number that an assignment writes, from the old value and the operand (R145, R147). -/
def assignedNum (op : AssignOp) (old n : Int) : Int :=
  match op with
  | .set => n
  | .add => old + n
  | .sub => old - n
  | .band => intAnd old n
  | .bor => intOr old n
  | .bxor => intXor old n

/-- A number as the result of a node: the value inside the range of R146, else `fault(IRRange)` at the node. -/
def rangedResult (node : Expr) (n : Int) (c : Ctx) : Eval (Value × Ctx) :=
  if -2147483648 ≤ n ∧ n ≤ 2147483647 then .ok (.num n, c) else .error (.irRange node)

/-! ## Shapes of IR fragments -/

/-- The statement writes `pc` by an assignment. -/
def Stmt.setsPc : Stmt → Bool
  | .exprStmt (.assign _ (.identifier (.env .pc)) _) => true
  | .exprStmt (.assign _ (.register .pc) _) => true
  | _ => false

mutual

/-- Every write of `pc` in the statement is followed at once by a `Return` (48_control_stack.md R385). -/
def Stmt.returnsAfterPc : Stmt → Bool
  | .block ss => ss.returnsAfterPc
  | .ifElse _ s alt => s.returnsAfterPc && alt.returnsAfterPc
  | .varDecl _ _ => true
  | .exprStmt _ => true
  | .ret _ => true

/-- Every write of `pc` in the sequence is followed at once by a `Return`. -/
def Stmts.returnsAfterPc : Stmts → Bool
  | .nil => true
  | .cons s .nil => s.returnsAfterPc && !s.setsPc
  | .cons s (.cons t rest) =>
    s.returnsAfterPc && (!s.setsPc || (match t with | .ret _ => true | _ => false)) && (Stmts.cons t rest).returnsAfterPc

end

end Sys2Proof.Machine
end

