-- ==== Sys2Proof/Certificates/Slice0/Obligations.lean ====
section
/-! DEFINITION. The statements for the provers. Each docstring names the rules of spec/ it formalises and the log entries it rests
on. Where `XyFrom` or `XyDrawn` stands, bits 5 and 3 of `F` are free values under the policy `DRAW` (log entry 4). -/

section

open Sys2Proof Sys2Proof.Machine

/-! ## Encoding -/

/-- 30_encoding.md R100, R101, R118, R120: every well-formed instruction is read back from its bytes, whatever bytes follow. -/
def Obligations.DecodeOfEncode : Prop :=
  ∀ (i : Instr) (rest : List Byte), i.wellFormed = true → decodeBytes (encode i ++ rest) = .ok i

/-- R100, R115, R120: what the decoder accepts is well-formed, 1 to 4 bytes long, and encodes to exactly the bytes it was read from. -/
def Obligations.EncodeOfDecode : Prop :=
  ∀ (b0 b1 b2 b3 : Byte) (i : Instr), decode b0 b1 b2 b3 = .ok i →
    i.wellFormed = true ∧ 1 ≤ i.length ∧ i.length ≤ 4 ∧ encode i = [b0, b1, b2, b3].take i.length

/-- R115, R119, R120: the decoder agrees with opcode_table.json. Of the rows whose pattern and constraints match the bytes there is
exactly one, of the mnemonic and the length decoded, where the decoder accepts, and none where it refuses. -/
def Obligations.DecodeMatchesOneRow : Prop :=
  ∀ b0 b1 b2 b3 : Byte,
    match decode b0 b1 b2 b3 with
    | .ok i => ∃ row, opcodeRows.filter (fun row => row.isMatch b0 b1 b2 b3) = [row]
        ∧ row.mnemonic = i.mnemonic ∧ row.length = i.length
    | .error .notInBlock => opcodeRows.filter (fun row => row.isMatch b0 b1 b2 b3) = []

/-- R112, R113, R114: the rows that the prefixes `CB`, `XY CB` and `ED` introduce are exactly these; every other opcode is refused. -/
def Obligations.PrefixedFamilies : Prop :=
  (∀ (op : Fin 8) (r : Reg8) (b2 b3 : Byte),
      decode 0xCB (opcode (op.val * 8 + reg8Code r)) b2 b3 = .ok (rotateReg (rotOpOfCode op) r)
      ∧ decode 0xCB (opcode (op.val * 8 + 6)) b2 b3 = .ok (rotateMem (rotOpOfCode op) .hl)
      ∧ decode 0xCB (opcode (0x40 + op.val * 8 + reg8Code r)) b2 b3 = .ok (.bitR op r)
      ∧ decode 0xCB (opcode (0x40 + op.val * 8 + 6)) b2 b3 = .ok (.bitHl op)
      ∧ decode 0xCB (opcode (0x80 + op.val * 8 + reg8Code r)) b2 b3 = .ok (.resR op r)
      ∧ decode 0xCB (opcode (0x80 + op.val * 8 + 6)) b2 b3 = .ok (.resHl op)
      ∧ decode 0xCB (opcode (0xC0 + op.val * 8 + reg8Code r)) b2 b3 = .ok (.setR op r)
      ∧ decode 0xCB (opcode (0xC0 + op.val * 8 + 6)) b2 b3 = .ok (.setHl op))
  ∧ (∀ (x : IndexReg) (d : Byte) (op : Fin 8) (r : Reg8),
      decode (prefixOf x) 0xCB d (opcode (op.val * 8 + 6)) = .ok (rotateMem (rotOpOfCode op) (.idx x d))
      ∧ decode (prefixOf x) 0xCB d (opcode (op.val * 8 + reg8Code r)) = .ok (rotateCopy (rotOpOfCode op) x d r)
      ∧ decode (prefixOf x) 0xCB d (opcode (0x40 + op.val * 8 + 6)) = .ok (.bitXd op x d)
      ∧ decode (prefixOf x) 0xCB d (opcode (0x80 + op.val * 8 + 6)) = .ok (.resXd op x d)
      ∧ decode (prefixOf x) 0xCB d (opcode (0xC0 + op.val * 8 + 6)) = .ok (.setXd op x d))
  ∧ (∀ (x : IndexReg) (d op : Byte), 0x40 ≤ op.toNat → op.toNat % 8 ≠ 6 →
      decode (prefixOf x) 0xCB d op = .error .notInBlock)
  ∧ (∀ (p : RegPair) (nn : Word),
      decode 0xED (opcode (0x4B + regPairCode p * 16)) (lo nn) (hi nn) = .ok (.ldDdAbs p nn)
      ∧ decode 0xED (opcode (0x43 + regPairCode p * 16)) (lo nn) (hi nn) = .ok (.ldAbsDd p nn)
      ∧ decode 0xED (opcode (0x4A + regPairCode p * 16)) (lo nn) (hi nn) = .ok (.adcHlSs p)
      ∧ decode 0xED (opcode (0x42 + regPairCode p * 16)) (lo nn) (hi nn) = .ok (.sbcHlSs p))
  ∧ (∀ b2 b3 : Byte,
      decode 0xED 0x44 b2 b3 = .ok .neg ∧ decode 0xED 0x47 b2 b3 = .ok .ldIA ∧ decode 0xED 0x4F b2 b3 = .ok .ldRefreshA
      ∧ decode 0xED 0x57 b2 b3 = .ok .ldAI ∧ decode 0xED 0x5F b2 b3 = .ok .ldARefresh)
  ∧ (∀ op b2 b3 : Byte, op &&& 0xCF ≠ 0x4B → op &&& 0xCF ≠ 0x43 → op &&& 0xCF ≠ 0x4A → op &&& 0xCF ≠ 0x42 →
      op ≠ 0x44 → op ≠ 0x47 → op ≠ 0x4F → op ≠ 0x57 → op ≠ 0x5F → decode 0xED op b2 b3 = .error .notInBlock)

/-- 104 words written out from the spec's encodings, and the instructions they stand for: one word or more of every format of
R101; the register codes of R103, as destination and as source; the pair codes of R104; the condition codes of R105; the prefixes
of R106 and the index halves of R109 and R110; the fields `q`, `ttt`, `ooo` and `bbb` of R102, R108 and R112. -/
def Obligations.SampleWords : Prop :=
  (∀ row ∈ ([
      ([0x78], .ldRR .a .b), ([0x76], .halt), ([0x36, 0x5A], .ldHlN 0x5A), ([0x38, 0xFE], .jrCc .c 0xFE),
      ([0x21, 0x34, 0x12], .ldDdNn .hl 0x1234), ([0xCB, 0x7F], .bitR 7 .a), ([0xED, 0x52], .sbcHlSs .de),
      ([0xED, 0x4B, 0x34, 0x12], .ldDdAbs .bc 0x1234), ([0xED, 0x73, 0xCD, 0xAB], .ldAbsDd .sp 0xABCD),
      ([0xDD, 0xE5], .pushXy .ix), ([0xFD, 0x26, 0x5A], .ldXhN .iy .high 0x5A), ([0xDD, 0x2E, 0x01], .ldXhN .ix .low 0x01),
      ([0xDD, 0x21, 0x34, 0x12], .ldXyNn .ix 0x1234), ([0xFD, 0x22, 0xCD, 0xAB], .ldAbsXy .iy 0xABCD),
      ([0xDD, 0x46, 0xFF], .ldRXd .b .ix 0xFF), ([0xFD, 0x75, 0x02], .ldXdR .iy 0x02 .l),
      ([0xDD, 0x36, 0xFE, 0x5A], .ldXdN .ix 0xFE 0x5A), ([0xDD, 0xCB, 0x03, 0x38], .srlXdR .ix 0x03 .b),
      ([0xFD, 0xCB, 0xFE, 0xBE], .resXd 7 .iy 0xFE) ] : List (List Byte × Instr)),
    decodeBytes row.1 = .ok row.2)
  ∧ (∀ row ∈ ([
      ([0x06, 0x01], .ldRN .b 0x01), ([0x0E, 0x01], .ldRN .c 0x01), ([0x16, 0x01], .ldRN .d 0x01),
      ([0x1E, 0x01], .ldRN .e 0x01), ([0x26, 0x01], .ldRN .h 0x01), ([0x2E, 0x01], .ldRN .l 0x01),
      ([0x3E, 0x01], .ldRN .a 0x01), ([0xA0], .andR .b), ([0xA1], .andR .c), ([0xA2], .andR .d), ([0xA3], .andR .e),
      ([0xA4], .andR .h), ([0xA5], .andR .l), ([0xA7], .andR .a), ([0x46], .ldRHl .b), ([0x70], .ldHlR .b) ] : List (List Byte × Instr)),
    decodeBytes row.1 = .ok row.2)
  ∧ (∀ row ∈ ([
      ([0x01, 0x34, 0x12], .ldDdNn .bc 0x1234), ([0x11, 0x34, 0x12], .ldDdNn .de 0x1234),
      ([0x21, 0x34, 0x12], .ldDdNn .hl 0x1234), ([0x31, 0x34, 0x12], .ldDdNn .sp 0x1234), ([0x09], .addHlSs .bc),
      ([0x19], .addHlSs .de), ([0x29], .addHlSs .hl), ([0x39], .addHlSs .sp), ([0xC5], .pushQq .bc), ([0xD5], .pushQq .de),
      ([0xE5], .pushQq .hl), ([0xF5], .pushQq .af), ([0xDD, 0x09], .addXyPp .ix .bc), ([0xDD, 0x19], .addXyPp .ix .de),
      ([0xDD, 0x29], .addXyPp .ix .xy), ([0xDD, 0x39], .addXyPp .ix .sp) ] : List (List Byte × Instr)),
    decodeBytes row.1 = .ok row.2)
  ∧ (∀ row ∈ ([
      ([0xC2, 0x50, 0x00], .jpCc .nz 0x0050), ([0xCA, 0x50, 0x00], .jpCc .z 0x0050), ([0xD2, 0x50, 0x00], .jpCc .nc 0x0050),
      ([0xDA, 0x50, 0x00], .jpCc .c 0x0050), ([0xE2, 0x50, 0x00], .jpCc .po 0x0050), ([0xEA, 0x50, 0x00], .jpCc .pe 0x0050),
      ([0xF2, 0x50, 0x00], .jpCc .p 0x0050), ([0xFA, 0x50, 0x00], .jpCc .m 0x0050), ([0xCC, 0x50, 0x00], .callCc .z 0x0050),
      ([0xE8], .retCc .pe), ([0x20, 0x02], .jrCc .nz 0x02), ([0x28, 0x02], .jrCc .z 0x02), ([0x30, 0x02], .jrCc .nc 0x02),
      ([0x38, 0x02], .jrCc .c 0x02) ] : List (List Byte × Instr)),
    decodeBytes row.1 = .ok row.2)
  ∧ (∀ row ∈ ([
      ([0xDD, 0x23], .incXy .ix), ([0xFD, 0x23], .incXy .iy), ([0xDD, 0x84], .addXh .ix .high),
      ([0xFD, 0x8D], .adcXh .iy .low), ([0xDD, 0x24], .incXh .ix .high), ([0xDD, 0x2D], .decXh .ix .low),
      ([0xDD, 0x60], .ldRho .ix .xh .b), ([0xDD, 0x61], .ldRho .ix .xh .c), ([0xDD, 0x62], .ldRho .ix .xh .d),
      ([0xDD, 0x63], .ldRho .ix .xh .e), ([0xDD, 0x64], .ldRho .ix .xh .xh), ([0xDD, 0x65], .ldRho .ix .xh .xl),
      ([0xDD, 0x67], .ldRho .ix .xh .a), ([0xFD, 0x45], .ldRho .iy .b .xl), ([0xFD, 0x4D], .ldRho .iy .c .xl),
      ([0xFD, 0x55], .ldRho .iy .d .xl), ([0xFD, 0x5D], .ldRho .iy .e .xl), ([0xFD, 0x65], .ldRho .iy .xh .xl),
      ([0xFD, 0x6D], .ldRho .iy .xl .xl), ([0xFD, 0x7D], .ldRho .iy .a .xl) ] : List (List Byte × Instr)),
    decodeBytes row.1 = .ok row.2)
  ∧ (∀ row ∈ ([
      ([0x0A], .ldAPtr .bc), ([0x1A], .ldAPtr .de), ([0x02], .ldPtrA .bc), ([0x12], .ldPtrA .de), ([0xC7], .rst 0),
      ([0xCF], .rst 1), ([0xFF], .rst 7), ([0xCB, 0x00], .rlcR .b), ([0xCB, 0x08], .rrcR .b), ([0xCB, 0x10], .rlR .b),
      ([0xCB, 0x18], .rrR .b), ([0xCB, 0x20], .slaR .b), ([0xCB, 0x28], .sraR .b), ([0xCB, 0x30], .sllR .b),
      ([0xCB, 0x38], .srlR .b), ([0xCB, 0x41], .bitR 0 .c), ([0xCB, 0xA6], .resHl 4), ([0xCB, 0xDE], .setHl 3),
      ([0xDD, 0xCB, 0x01, 0x4E], .bitXd 1 .ix 0x01) ] : List (List Byte × Instr)),
    decodeBytes row.1 = .ok row.2)

/-! ## The register file and memory -/

/-- 10_state.md R32, R33, R37, R38: a register read after a write gives the value written and the other registers keep theirs; the
pairs are views of their halves; a write of a register changes nothing outside its file. -/
def Obligations.RegisterFile : Prop :=
  (∀ (s : State) (r q : Reg8) (v : Byte),
      (s.setReg8 r v).reg8 q = if q = r then v else s.reg8 q)
  ∧ (∀ (s : State) (x y : IndexReg) (u w : IndexHalf) (v : Byte),
      (s.setHalf x u v).half y w = if y = x ∧ w = u then v else s.half y w)
  ∧ (∀ (s : State) (p q : RegPair) (v : Word), (s.setPair p v).pair q = if q = p then v else s.pair q)
  ∧ (∀ (s : State) (p q : StackPair) (v : Word), (s.setStackPair p v).stackPair q = if q = p then v else s.stackPair q)
  ∧ (∀ (s : State) (x y : IndexReg) (v : Word), (s.setIndex x v).index y = if y = x then v else s.index y)
  ∧ (∀ (s : State) (x : IndexReg) (t q : Rho) (v : Byte), (s.setRho x t v).rho x q = if q = t then v else s.rho x q)
  ∧ (∀ (s : State) (r : Reg8) (p : RegPair) (q : StackPair) (x : IndexReg) (u : IndexHalf) (t : Rho) (v : Byte) (w : Word),
      OnlyReg8s s (s.setReg8 r v) ∧ OnlyHalves s (s.setHalf x u v) ∧ OnlyHalves s (s.setIndex x w)
      ∧ OnlyRhos s (s.setRho x t v) ∧ OnlyPairs s (s.setPair p w) ∧ OnlyStackPairs s (s.setStackPair q w))
  ∧ (∀ (s : State) (v : Word), (s.setHl v).h = hi v ∧ (s.setHl v).l = lo v ∧ (s.setBc v).b = hi v ∧ (s.setBc v).c = lo v
      ∧ (s.setDe v).d = hi v ∧ (s.setDe v).e = lo v ∧ (s.setAf v).a = hi v ∧ (s.setAf v).f = lo v)

/-- 20_memory.md R73, with R72 and R74: `LD (nn),dd` then `LD dd',(nn)` moves the word, at every address, `0xFFFF` included; an 8-bit
read at `nn` then gives the low byte and one at `nn + 1` the high byte. The immediate words of the instruction stream have the same
order, in every form that has one. -/
def Obligations.WordStoreThenLoad : Prop :=
  (∀ (nn : Word) (p : RegPair) (cc : Cond) (x : IndexReg),
    ∀ row ∈ ([
      ([opcode (0x01 + regPairCode p * 16)], .ldDdNn p nn), ([0x2A], .ldHlAbs nn), ([0x22], .ldAbsHl nn), ([0x3A], .ldAAbs nn),
      ([0x32], .ldAbsA nn), ([0xC3], .jpNn nn), ([opcode (0xC2 + condCode cc * 8)], .jpCc cc nn), ([0xCD], .callNn nn),
      ([opcode (0xC4 + condCode cc * 8)], .callCc cc nn), ([0xED, opcode (0x4B + regPairCode p * 16)], .ldDdAbs p nn),
      ([0xED, opcode (0x43 + regPairCode p * 16)], .ldAbsDd p nn), ([prefixOf x, 0x21], .ldXyNn x nn),
      ([prefixOf x, 0x2A], .ldXyAbs x nn), ([prefixOf x, 0x22], .ldAbsXy x nn) ] : List (List Byte × Instr)),
    encode row.2 = row.1 ++ [lo nn, hi nn] ∧ decodeBytes (row.1 ++ [lo nn, hi nn]) = .ok row.2)
  ∧ ∀ (s : State) (p q : RegPair) (nn : Word), s.canWriteWord nn = true → s.canReadWord nn = true →
    ∃ t, exec (.ldAbsDd p nn) s = .next t
      ∧ exec (.ldDdAbs q nn) t = .next { t.setPair q (s.pair p) with pc := t.pc + 4 }
      ∧ exec (.ldAAbs nn) t = .next { t with a := lo (s.pair p), pc := t.pc + 3 }
      ∧ exec (.ldAAbs (nn + 1)) t = .next { t with a := hi (s.pair p), pc := t.pc + 3 }

/-! ## 8-bit arithmetic and logic -/

/-- 41_alu_flags.md R183, the results of R271 and R272: `ADD` and `ADC` in the five source forms. -/
def Obligations.AddAndAdc : Prop :=
  ∀ (carry : Bool) (o : Source8) (s : State), o.readable s = true →
    ∃ t, exec (aluInstr (if carry then .adc else .add) o) s = .next t
      ∧ t.a.toNat = (s.a.toNat + (o.value s).toNat + (carry && s.flag .c).toNat) % 256
      ∧ t.FlagsAre (t.a.getLsbD 7) (decide (t.a = 0))
          (decide (16 ≤ s.a.toNat % 16 + (o.value s).toNat % 16 + (carry && s.flag .c).toNat))
          (s.a.getLsbD 7 == (o.value s).getLsbD 7 && t.a.getLsbD 7 != s.a.getLsbD 7)
          false
          (decide (256 ≤ s.a.toNat + (o.value s).toNat + (carry && s.flag .c).toNat))
      ∧ XyFrom s t t.a
      ∧ t.pc = s.pc + BitVec.ofNat 16 o.length
      ∧ t = { s with a := t.a, f := t.f, pc := t.pc, draws := t.draws }

/-- R184, the results of R273 and R274: `SUB` and `SBC` in the five source forms. -/
def Obligations.SubAndSbc : Prop :=
  ∀ (carry : Bool) (o : Source8) (s : State), o.readable s = true →
    ∃ t, exec (aluInstr (if carry then .sbc else .sub) o) s = .next t
      ∧ (t.a.toNat : Int) = ((s.a.toNat : Int) - (o.value s).toNat - (carry && s.flag .c).toNat) % 256
      ∧ t.FlagsAre (t.a.getLsbD 7) (decide (t.a = 0))
          (decide (s.a.toNat % 16 < (o.value s).toNat % 16 + (carry && s.flag .c).toNat))
          (s.a.getLsbD 7 != (o.value s).getLsbD 7 && t.a.getLsbD 7 != s.a.getLsbD 7)
          true
          (decide (s.a.toNat < (o.value s).toNat + (carry && s.flag .c).toNat))
      ∧ XyFrom s t t.a
      ∧ t.pc = s.pc + BitVec.ofNat 16 o.length
      ∧ t = { s with a := t.a, f := t.f, pc := t.pc, draws := t.draws }

/-- R185, the result of R275: `CP` writes the flags of the subtraction, bits 5 and 3 from the operand, and leaves `A`. -/
def Obligations.Compare : Prop :=
  ∀ (o : Source8) (s : State), o.readable s = true →
    ∃ t, exec (aluInstr .cp o) s = .next t
      ∧ t.FlagsAre ((s.a - o.value s).getLsbD 7) (decide (s.a = o.value s))
          (decide (s.a.toNat % 16 < (o.value s).toNat % 16))
          (s.a.getLsbD 7 != (o.value s).getLsbD 7 && (s.a - o.value s).getLsbD 7 != s.a.getLsbD 7)
          true
          (decide (s.a.toNat < (o.value s).toNat))
      ∧ XyFrom s t (o.value s)
      ∧ t.pc = s.pc + BitVec.ofNat 16 o.length
      ∧ t = { s with f := t.f, pc := t.pc, draws := t.draws }

/-- R192, the results of R301 to R303: `AND`, `XOR` and `OR` in the five source forms; all of `F` is replaced. -/
def Obligations.LogicalOperations : Prop :=
  ∀ (op : LogicOp) (o : Source8) (s : State), o.readable s = true →
    ∃ t, exec (aluInstr (match op with | .and => .and | .xor => .xor | .or => .or) o) s = .next t
      ∧ t.a = (match op with | .and => s.a &&& o.value s | .xor => s.a ^^^ o.value s | .or => s.a ||| o.value s)
      ∧ t.FlagsAre (t.a.getLsbD 7) (decide (t.a = 0)) (decide (op = .and)) (decide (onesOf t.a % 2 = 0)) false false
      ∧ XyFrom s t t.a
      ∧ t.pc = s.pc + BitVec.ofNat 16 o.length
      ∧ t = { s with a := t.a, f := t.f, pc := t.pc, draws := t.draws }

/-- 20_memory.md R76, R78, 43_arith8.md R270: an instruction whose memory operand is outside `READABLE`, or must be written and is outside
`WRITABLE`, is `stuck`. -/
def Obligations.InaccessibleOperandIsStuck : Prop :=
  (∀ (op : AluOp) (o : Source8) (s : State), o.readable s = false → exec (aluInstr op o) s = .fault .stuck)
  ∧ (∀ (m : Mem8) (s : State), (s.canRead (m.address s) && s.canWrite (m.address s)) = false →
      exec (incMem m) s = .fault .stuck ∧ exec (decMem m) s = .fault .stuck
      ∧ (∀ op : RotOp, exec (rotateMem op m) s = .fault .stuck)
      ∧ (∀ b : Fin 8, exec (resMemInstr b m) s = .fault .stuck ∧ exec (setMemInstr b m) s = .fault .stuck)
      ∧ (∀ (op : RotOp) (x : IndexReg) (d : Byte) (r : Reg8), m = .idx x d → exec (rotateCopy op x d r) s = .fault .stuck))
  ∧ (∀ (s : State),
      (∀ o : ByteStore, s.canWrite (o.address s) = false → exec o.instr s = .fault .stuck)
      ∧ (∀ nn : Word, s.canReadWord nn = false →
        exec (.ldHlAbs nn) s = .fault .stuck ∧ (∀ p : RegPair, exec (.ldDdAbs p nn) s = .fault .stuck)
        ∧ (∀ x : IndexReg, exec (.ldXyAbs x nn) s = .fault .stuck))
      ∧ (∀ nn : Word, s.canWriteWord nn = false →
        exec (.ldAbsHl nn) s = .fault .stuck ∧ (∀ p : RegPair, exec (.ldAbsDd p nn) s = .fault .stuck)
        ∧ (∀ x : IndexReg, exec (.ldAbsXy x nn) s = .fault .stuck)))

/-- 41_alu_flags.md R186, the results of 43_arith8.md R276: `INC` of a register, an index half or a memory byte. -/
def Obligations.Increment8 : Prop :=
  (∀ (p : Place8) (s : State),
    ∃ t, exec (incPlace p) s = .next t
      ∧ p.value t = p.value s + 1
      ∧ t.FlagsAre ((p.value s + 1).getLsbD 7) (decide (p.value s = 0xFF)) (decide ((p.value s).toNat % 16 = 15))
          (decide (p.value s = 0x7F)) false (s.flag .c)
      ∧ XyFrom s t (p.value s + 1)
      ∧ t.pc = s.pc + BitVec.ofNat 16 p.length
      ∧ t = p.set { s with f := t.f, pc := t.pc, draws := t.draws } (p.value t))
  ∧ (∀ (m : Mem8) (s : State), s.canRead (m.address s) = true → s.canWrite (m.address s) = true →
    ∃ t, exec (incMem m) s = .next t
      ∧ StoredByte s t (m.address s) (s.readByte (m.address s) + 1)
      ∧ t.FlagsAre ((s.readByte (m.address s) + 1).getLsbD 7) (decide (s.readByte (m.address s) = 0xFF))
          (decide ((s.readByte (m.address s)).toNat % 16 = 15)) (decide (s.readByte (m.address s) = 0x7F)) false (s.flag .c)
      ∧ XyFrom s t (s.readByte (m.address s) + 1)
      ∧ t.pc = s.pc + BitVec.ofNat 16 m.countLength
      ∧ t = { s with f := t.f, pc := t.pc, draws := t.draws, mem := t.mem, written := t.written })

/-- R187, the results of R277: `DEC` of a register, an index half or a memory byte. -/
def Obligations.Decrement8 : Prop :=
  (∀ (p : Place8) (s : State),
    ∃ t, exec (decPlace p) s = .next t
      ∧ p.value t = p.value s - 1
      ∧ t.FlagsAre ((p.value s - 1).getLsbD 7) (decide (p.value s = 0x01)) (decide ((p.value s).toNat % 16 = 0))
          (decide (p.value s = 0x80)) true (s.flag .c)
      ∧ XyFrom s t (p.value s - 1)
      ∧ t.pc = s.pc + BitVec.ofNat 16 p.length
      ∧ t = p.set { s with f := t.f, pc := t.pc, draws := t.draws } (p.value t))
  ∧ (∀ (m : Mem8) (s : State), s.canRead (m.address s) = true → s.canWrite (m.address s) = true →
    ∃ t, exec (decMem m) s = .next t
      ∧ StoredByte s t (m.address s) (s.readByte (m.address s) - 1)
      ∧ t.FlagsAre ((s.readByte (m.address s) - 1).getLsbD 7) (decide (s.readByte (m.address s) = 0x01))
          (decide ((s.readByte (m.address s)).toNat % 16 = 0)) (decide (s.readByte (m.address s) = 0x80)) true (s.flag .c)
      ∧ XyFrom s t (s.readByte (m.address s) - 1)
      ∧ t.pc = s.pc + BitVec.ofNat 16 m.countLength
      ∧ t = { s with f := t.f, pc := t.pc, draws := t.draws, mem := t.mem, written := t.written })

/-- 49_misc.md R426: `NEG`, `H` and `C` telling whether the low nibble and the byte were nonzero. -/
def Obligations.Negate : Prop :=
  ∀ s : State, ∃ t, exec .neg s = .next t
    ∧ t.a = 0 - s.a
    ∧ t.FlagsAre (t.a.getLsbD 7) (decide (t.a = 0)) (decide (s.a &&& 0x0F ≠ 0)) (decide (s.a = 0x80)) true (decide (s.a ≠ 0))
    ∧ XyFrom s t t.a
    ∧ t.pc = s.pc + 2
    ∧ t = { s with a := t.a, f := t.f, pc := t.pc, draws := t.draws }

/-- 41_alu_flags.md R195: `DAA`, the correction and its flags written out. -/
def Obligations.DecimalAdjust : Prop :=
  ∀ s : State, ∃ t, exec .daa s = .next t
    ∧ t.a = (if s.flag .n then s.a - daaCorrection s else s.a + daaCorrection s)
    ∧ t.FlagsAre (t.a.getLsbD 7) (decide (t.a = 0))
        (if s.flag .n then s.flag .h && decide (s.a.toNat % 16 < 6) else decide (9 < s.a.toNat % 16))
        (decide (onesOf t.a % 2 = 0)) (s.flag .n) (s.flag .c || decide (0x99 < s.a.toNat))
    ∧ XyFrom s t t.a
    ∧ t.pc = s.pc + 1
    ∧ t = { s with a := t.a, f := t.f, pc := t.pc, draws := t.draws }

/-- R183, R184, R195, the use that 49_misc.md R427's examples show: after `ADD` or `SUB` of two packed decimal bytes, `DAA` leaves the
packed decimal sum or difference modulo 100, and `C` tells whether it left the range `0 .. 99`. -/
def Obligations.DecimalAdjustGivesDecimal : Prop :=
  ∀ (s : State) (n : Byte), isPackedDecimal s.a = true → isPackedDecimal n = true →
    (∃ t u, exec (.addN n) s = .next t ∧ exec .daa t = .next u
      ∧ isPackedDecimal u.a = true
      ∧ decimalOf u.a = (decimalOf s.a + decimalOf n) % 100
      ∧ u.flag .c = decide (100 ≤ decimalOf s.a + decimalOf n))
    ∧ (∃ t u, exec (.subN n) s = .next t ∧ exec .daa t = .next u
      ∧ isPackedDecimal u.a = true
      ∧ decimalOf u.a = (decimalOf s.a + 100 - decimalOf n) % 100
      ∧ u.flag .c = decide (decimalOf s.a < decimalOf n))

/-- R196, R197, R198: `CPL`, `CCF` and `SCF`; bits 5 and 3 of `SCF` and `CCF` are free values under both policies. -/
def Obligations.ComplementAndCarry : Prop :=
  ∀ s : State,
    (∃ t, exec .cpl s = .next t ∧ t.a = ~~~s.a
      ∧ t.FlagsAre (s.flag .s) (s.flag .z) true (s.flag .pv) true (s.flag .c) ∧ XyFrom s t t.a
      ∧ t.pc = s.pc + 1 ∧ t = { s with a := t.a, f := t.f, pc := t.pc, draws := t.draws })
    ∧ (∃ t, exec .ccf s = .next t
      ∧ t.FlagsAre (s.flag .s) (s.flag .z) (s.flag .c) (s.flag .pv) false (!s.flag .c) ∧ XyDrawn s t
      ∧ t.pc = s.pc + 1 ∧ t = { s with f := t.f, pc := t.pc, draws := t.draws })
    ∧ (∃ t, exec .scf s = .next t
      ∧ t.FlagsAre (s.flag .s) (s.flag .z) false (s.flag .pv) false true ∧ XyDrawn s t
      ∧ t.pc = s.pc + 1 ∧ t = { s with f := t.f, pc := t.pc, draws := t.draws })

/-! ## 16-bit arithmetic -/

/-- R188, the results of 45_arith16.md R315 and R316: `ADD HL,ss` and `ADD XY,pp`; `S`, `Z` and `PV` are kept. -/
def Obligations.Add16 : Prop :=
  (∀ (p : RegPair) (s : State),
    ∃ t, exec (.addHlSs p) s = .next t
      ∧ t.hl.toNat = (s.hl.toNat + (s.pair p).toNat) % 65536
      ∧ t.FlagsAre (s.flag .s) (s.flag .z) (decide (4096 ≤ s.hl.toNat % 4096 + (s.pair p).toNat % 4096)) (s.flag .pv) false
          (decide (65536 ≤ s.hl.toNat + (s.pair p).toNat))
      ∧ XyFrom s t t.h
      ∧ t.pc = s.pc + 1
      ∧ t = { s with h := t.h, l := t.l, f := t.f, pc := t.pc, draws := t.draws })
  ∧ (∀ (x : IndexReg) (p : IndexAddPair) (s : State),
    ∃ t, exec (.addXyPp x p) s = .next t
      ∧ (t.index x).toNat = ((s.index x).toNat + (s.indexAddPair x p).toNat) % 65536
      ∧ t.FlagsAre (s.flag .s) (s.flag .z) (decide (4096 ≤ (s.index x).toNat % 4096 + (s.indexAddPair x p).toNat % 4096))
          (s.flag .pv) false (decide (65536 ≤ (s.index x).toNat + (s.indexAddPair x p).toNat))
      ∧ XyFrom s t (t.half x .high)
      ∧ t.pc = s.pc + 2
      ∧ t = { s.setIndex x (t.index x) with f := t.f, pc := t.pc, draws := t.draws })

/-- 41_alu_flags.md R191, the results of 45_arith16.md R318 and R319: `ADC HL,ss` and `SBC HL,ss`. `PV` tells whether the signed sum or
difference left `-32768 .. 32767`; bits 5 and 3 are 0 (R189, R190). -/
def Obligations.CarryArithmetic16 : Prop :=
  (∀ (p : RegPair) (s : State),
    ∃ t, exec (.adcHlSs p) s = .next t
      ∧ t.hl.toNat = (s.hl.toNat + (s.pair p).toNat + (s.flag .c).toNat) % 65536
      ∧ t.FlagsAre (t.hl.getLsbD 15) (decide (t.hl = 0))
          (decide (4096 ≤ s.hl.toNat % 4096 + (s.pair p).toNat % 4096 + (s.flag .c).toNat))
          (decide (s16 s.hl + s16 (s.pair p) + (s.flag .c).toNat < -32768
            ∨ 32767 < s16 s.hl + s16 (s.pair p) + (s.flag .c).toNat))
          false
          (decide (65536 ≤ s.hl.toNat + (s.pair p).toNat + (s.flag .c).toNat))
      ∧ t.f &&& 0x28 = 0
      ∧ t.pc = s.pc + 2
      ∧ t = { s with h := t.h, l := t.l, f := t.f, pc := t.pc })
  ∧ (∀ (p : RegPair) (s : State),
    ∃ t, exec (.sbcHlSs p) s = .next t
      ∧ (t.hl.toNat : Int) = ((s.hl.toNat : Int) - (s.pair p).toNat - (s.flag .c).toNat) % 65536
      ∧ t.FlagsAre (t.hl.getLsbD 15) (decide (t.hl = 0))
          (decide (s.hl.toNat % 4096 < (s.pair p).toNat % 4096 + (s.flag .c).toNat))
          (decide (s16 s.hl - s16 (s.pair p) - (s.flag .c).toNat < -32768
            ∨ 32767 < s16 s.hl - s16 (s.pair p) - (s.flag .c).toNat))
          true
          (decide (s.hl.toNat < (s.pair p).toNat + (s.flag .c).toNat))
      ∧ t.f &&& 0x28 = 0
      ∧ t.pc = s.pc + 2
      ∧ t = { s with h := t.h, l := t.l, f := t.f, pc := t.pc })

/-- 45_arith16.md R320 to R323: the 16-bit increments and decrements, modulo `2^16`, no flag written; and the halves as the rules
compute them, each masked to 8 bits, the carry or borrow an `If` on the low half. -/
def Obligations.IncDec16 : Prop :=
  (∀ (p : RegPair) (s : State),
    exec (.incSs p) s = .next { s.setPair p (s.pair p + 1) with pc := s.pc + 1 }
    ∧ exec (.decSs p) s = .next { s.setPair p (s.pair p - 1) with pc := s.pc + 1 })
  ∧ (∀ (x : IndexReg) (s : State),
    exec (.incXy x) s = .next { s.setIndex x (s.index x + 1) with pc := s.pc + 2 }
    ∧ exec (.decXy x) s = .next { s.setIndex x (s.index x - 1) with pc := s.pc + 2 })
  ∧ (∀ h l : Byte,
    join h l + 1 = join (if l + 1 = 0 then h + 1 else h) (l + 1)
    ∧ join h l - 1 = join (if l - 1 = 0xFF then h - 1 else h) (l - 1))

/-! ## Rotates, shifts and bits -/

/-- 41_alu_flags.md R193, the register form of 46_rotate_shift.md R345 to R352: each bit of the result, the bit moved out, and all
of `F`. -/
def Obligations.RotateRegister : Prop :=
  ∀ (op : RotOp) (r : Reg8) (s : State),
    ∃ t, exec (rotateReg op r) s = .next t
      ∧ (∀ k : Nat, k < 8 → (t.reg8 r).getLsbD k = rotateBit op (s.reg8 r) (s.flag .c) k)
      ∧ t.RotateFlags (t.reg8 r) (rotateOut op (s.reg8 r))
      ∧ XyFrom s t (t.reg8 r)
      ∧ t.pc = s.pc + 2
      ∧ t = { s.setReg8 r (t.reg8 r) with f := t.f, pc := t.pc, draws := t.draws }

/-- 46_rotate_shift.md R340: the memory forms of the rotates and shifts read and write one byte; the form with a register copy also
writes the result to the real register. -/
def Obligations.RotateMemory : Prop :=
  (∀ (op : RotOp) (m : Mem8) (s : State), s.canRead (m.address s) = true → s.canWrite (m.address s) = true →
    ∃ t q, exec (rotateMem op m) s = .next t
      ∧ (∀ k : Nat, k < 8 → q.getLsbD k = rotateBit op (s.readByte (m.address s)) (s.flag .c) k)
      ∧ StoredByte s t (m.address s) q
      ∧ t.RotateFlags q (rotateOut op (s.readByte (m.address s)))
      ∧ XyFrom s t q
      ∧ t.pc = s.pc + BitVec.ofNat 16 m.cbLength
      ∧ t = { s with f := t.f, pc := t.pc, draws := t.draws, mem := t.mem, written := t.written })
  ∧ (∀ (op : RotOp) (x : IndexReg) (d : Byte) (r : Reg8) (s : State),
    s.canRead (s.indexed x d) = true → s.canWrite (s.indexed x d) = true →
    ∃ t, exec (rotateMem op (.idx x d)) s = .next t
      ∧ exec (rotateCopy op x d r) s = .next (t.setReg8 r (t.readByte (s.indexed x d))))

/-- 41_alu_flags.md R194: the accumulator rotates write `A` as the rows `rlc`, `rrc`, `rl` and `rr` do, keep `S`, `Z` and `PV`, and
clear `H` and `N`. -/
def Obligations.RotateAccumulator : Prop :=
  ∀ (op : RotOp) (i : Instr) (s : State),
    (op, i) ∈ [(RotOp.rlc, Instr.rlca), (RotOp.rrc, Instr.rrca), (RotOp.rl, Instr.rla), (RotOp.rr, Instr.rra)] →
    ∃ t, exec i s = .next t
      ∧ (∀ k : Nat, k < 8 → t.a.getLsbD k = rotateBit op s.a (s.flag .c) k)
      ∧ t.FlagsAre (s.flag .s) (s.flag .z) false (s.flag .pv) false (rotateOut op s.a)
      ∧ XyFrom s t t.a
      ∧ t.pc = s.pc + 1
      ∧ t = { s with a := t.a, f := t.f, pc := t.pc, draws := t.draws }

/-- R199, the results of 47_bit.md R366: `BIT` writes only `F`; what both policies fix, and the rest by policy. -/
def Obligations.BitTest : Prop :=
  (∀ (b : Fin 8) (r : Reg8) (s : State),
    ∃ t, exec (.bitR b r) s = .next t
      ∧ t.flag .z = !(s.reg8 r).getLsbD b.val ∧ t.flag .h = true ∧ t.flag .n = false ∧ t.flag .c = s.flag .c
      ∧ (s.params.undoc = .z80 →
          t.flag .s = (decide (b = 7) && (s.reg8 r).getLsbD 7) ∧ t.flag .pv = t.flag .z
          ∧ t.f &&& 0x28 = s.reg8 r &&& 0x28 ∧ t.draws = s.draws)
      ∧ (s.params.undoc = .draw → t.f &&& 0xAC = Config.freeByte s.draws &&& 0xAC ∧ t.draws = s.draws + 1)
      ∧ t.pc = s.pc + 2
      ∧ t = { s with f := t.f, pc := t.pc, draws := t.draws })
  ∧ (∀ (b : Fin 8) (m : Mem8) (s : State), s.canRead (m.address s) = true →
    ∃ t, exec (bitMemInstr b m) s = .next t
      ∧ t.flag .z = !(s.readByte (m.address s)).getLsbD b.val ∧ t.flag .h = true ∧ t.flag .n = false ∧ t.flag .c = s.flag .c
      ∧ (s.params.undoc = .z80 →
          t.flag .s = (decide (b = 7) && (s.readByte (m.address s)).getLsbD 7) ∧ t.flag .pv = t.flag .z
          ∧ t.f &&& 0x28 = Config.freeByte s.draws &&& 0x28)
      ∧ (s.params.undoc = .draw → t.f &&& 0xAC = Config.freeByte s.draws &&& 0xAC)
      ∧ t.draws = s.draws + 1
      ∧ t.pc = s.pc + BitVec.ofNat 16 m.cbLength
      ∧ t = { s with f := t.f, pc := t.pc, draws := t.draws })
  ∧ (∀ (b : Fin 8) (m : Mem8) (s : State), s.canRead (m.address s) = false → exec (bitMemInstr b m) s = .fault .stuck)

/-- 47_bit.md R367, R368: `RES` and `SET` change exactly the named bit of their operand, and no flag. -/
def Obligations.ResetAndSetBit : Prop :=
  (∀ (b : Fin 8) (r : Reg8) (s : State),
    (∃ v, exec (.resR b r) s = .next { s.setReg8 r v with pc := s.pc + 2 }
      ∧ ∀ k : Nat, v.getLsbD k = (decide (k ≠ b.val) && (s.reg8 r).getLsbD k))
    ∧ (∃ v, exec (.setR b r) s = .next { s.setReg8 r v with pc := s.pc + 2 }
      ∧ ∀ k : Nat, v.getLsbD k = (decide (k = b.val) || (s.reg8 r).getLsbD k)))
  ∧ (∀ (b : Fin 8) (m : Mem8) (s : State), s.canRead (m.address s) = true → s.canWrite (m.address s) = true →
    (∃ t v, exec (resMemInstr b m) s = .next t ∧ StoredByte s t (m.address s) v
      ∧ (∀ k : Nat, v.getLsbD k = (decide (k ≠ b.val) && (s.readByte (m.address s)).getLsbD k))
      ∧ t = { s with pc := s.pc + BitVec.ofNat 16 m.cbLength, mem := t.mem, written := t.written })
    ∧ (∃ t v, exec (setMemInstr b m) s = .next t ∧ StoredByte s t (m.address s) v
      ∧ (∀ k : Nat, v.getLsbD k = (decide (k = b.val) || (s.readByte (m.address s)).getLsbD k))
      ∧ t = { s with pc := s.pc + BitVec.ofNat 16 m.cbLength, mem := t.mem, written := t.written }))

/-! ## Loads -/

/-- 42_load.md R221, R223, R239, R240, R241, R242, R249, R250: the register and immediate loads, 8 and 16 bits; nothing but the
destination and `PC` changes. -/
def Obligations.RegisterLoads : Prop :=
  ∀ s : State,
    (∀ r q : Reg8, exec (.ldRR r q) s = .next { s.setReg8 r (s.reg8 q) with pc := s.pc + 1 })
    ∧ (∀ (r : Reg8) (n : Byte), exec (.ldRN r n) s = .next { s.setReg8 r n with pc := s.pc + 2 })
    ∧ (∀ (x : IndexReg) (t q : Rho), exec (.ldRho x t q) s = .next { s.setRho x t (s.rho x q) with pc := s.pc + 2 })
    ∧ (∀ (x : IndexReg) (u : IndexHalf) (n : Byte), exec (.ldXhN x u n) s = .next { s.setHalf x u n with pc := s.pc + 3 })
    ∧ (∀ (p : RegPair) (nn : Word), exec (.ldDdNn p nn) s = .next { s.setPair p nn with pc := s.pc + 3 })
    ∧ (∀ (x : IndexReg) (nn : Word), exec (.ldXyNn x nn) s = .next { s.setIndex x nn with pc := s.pc + 4 })
    ∧ exec .ldSpHl s = .next { s with sp := s.hl, pc := s.pc + 1 }
    ∧ (∀ x : IndexReg, exec (.ldSpXy x) s = .next { s with sp := s.index x, pc := s.pc + 2 })

/-- R224, R227, R230, R231: the 8-bit loads from memory, and `stuck` where the address is outside `READABLE`; the address is that of
the state before the load (10_state.md R57), and under a prefix `H` and `L` are the real registers (30_encoding.md R111). -/
def Obligations.ByteLoads : Prop :=
  ∀ s : State,
    (∀ r : Reg8, exec (.ldRHl r) s =
      if s.canRead s.hl then .next { s.setReg8 r (s.readByte s.hl) with pc := s.pc + 1 } else .fault .stuck)
    ∧ (∀ (r : Reg8) (x : IndexReg) (d : Byte), exec (.ldRXd r x d) s =
      if s.canRead (s.indexed x d) then .next { s.setReg8 r (s.readByte (s.indexed x d)) with pc := s.pc + 3 }
      else .fault .stuck)
    ∧ (∀ q : PtrPair, exec (.ldAPtr q) s =
      if s.canRead (match q with | .bc => s.bc | .de => s.de) then
        .next { s with a := s.readByte (match q with | .bc => s.bc | .de => s.de), pc := s.pc + 1 }
      else .fault .stuck)
    ∧ (∀ nn : Word, exec (.ldAAbs nn) s =
      if s.canRead nn then .next { s with a := s.readByte nn, pc := s.pc + 3 } else .fault .stuck)

/-- R225, R226, R228, R229, R236, R237: the 8-bit stores; every byte but the one stored reads as before. -/
def Obligations.ByteStores : Prop :=
  ∀ (s : State) (o : ByteStore), s.canWrite (o.address s) = true →
    ∃ t, exec o.instr s = .next t
      ∧ StoredByte s t (o.address s) (o.value s)
      ∧ t = { s with pc := s.pc + BitVec.ofNat 16 o.length, mem := t.mem, written := t.written }

/-- 42_load.md R243 to R248: the 16-bit loads and stores move the low half at the address and the high half at the next, modulo `2^16`. -/
def Obligations.WordLoadsAndStores : Prop :=
  (∀ (s : State) (nn : Word), s.canReadWord nn = true →
      (∃ t, exec (.ldHlAbs nn) s = .next t ∧ t.l = s.readByte nn ∧ t.h = s.readByte (nn + 1) ∧ t.pc = s.pc + 3
        ∧ t = { s with h := t.h, l := t.l, pc := t.pc })
      ∧ (∀ p : RegPair, exec (.ldDdAbs p nn) s = .next { s.setPair p (s.wordAt nn) with pc := s.pc + 4 })
      ∧ (∀ x : IndexReg, ∃ t, exec (.ldXyAbs x nn) s = .next t
        ∧ t.half x .low = s.readByte nn ∧ t.half x .high = s.readByte (nn + 1) ∧ t.pc = s.pc + 4
        ∧ t = { s.setIndex x (t.index x) with pc := t.pc }))
  ∧ (∀ (s : State) (nn : Word), s.canWriteWord nn = true →
      (∃ t, exec (.ldAbsHl nn) s = .next t ∧ StoredWord s t nn s.hl
        ∧ t = { s with pc := s.pc + 3, mem := t.mem, written := t.written })
      ∧ (∀ p : RegPair, ∃ t, exec (.ldAbsDd p nn) s = .next t ∧ StoredWord s t nn (s.pair p)
        ∧ t = { s with pc := s.pc + 4, mem := t.mem, written := t.written })
      ∧ (∀ x : IndexReg, ∃ t, exec (.ldAbsXy x nn) s = .next t ∧ StoredWord s t nn (s.index x)
        ∧ t = { s with pc := s.pc + 4, mem := t.mem, written := t.written }))

/-- 41_alu_flags.md R200, 42_load.md R232 to R235: `LD A,I` and `LD A,R` with their flags, `LD I,A` and `LD R,A`. The value `LD A,R` loads
is a free value (log entry 4), and `R` is not read. That this value is the step's first draw, and bits 5 and 3 under `DRAW` come from the
second, is the model's choice (log entry 21). -/
def Obligations.SpecialRegisters : Prop :=
  (∀ s : State,
      (∃ t, exec .ldAI s = .next t ∧ t.a = s.i
        ∧ t.FlagsAre (s.i.getLsbD 7) (decide (s.i = 0)) false (decide (s.iff2 = 1)) false (s.flag .c)
        ∧ XyFrom s t s.i ∧ t.pc = s.pc + 2
        ∧ t = { s with a := t.a, f := t.f, pc := t.pc, draws := t.draws })
      ∧ (∃ t, exec .ldARefresh s = .next t ∧ t.a = Config.freeByte s.draws
        ∧ t.FlagsAre (t.a.getLsbD 7) (decide (t.a = 0)) false (decide (s.iff2 = 1)) false (s.flag .c)
        ∧ XyFrom { s with draws := s.draws + 1 } t t.a ∧ t.pc = s.pc + 2
        ∧ t = { s with a := t.a, f := t.f, pc := t.pc, draws := t.draws }))
  ∧ (∀ s : State, exec .ldIA s = .next { s with i := s.a, pc := s.pc + 2 }
      ∧ exec .ldRefreshA s = .next { s with r := s.a, pc := s.pc + 2 })

/-! ## Control transfer -/

/-- 48_control_stack.md R386: the eight conditions by flag, and the four of `JR cc`. -/
def Obligations.Conditions : Prop :=
  ∀ f : Byte,
    condHolds f .nz = !f.getLsbD 6 ∧ condHolds f .z = f.getLsbD 6
    ∧ condHolds f .nc = !f.getLsbD 0 ∧ condHolds f .c = f.getLsbD 0
    ∧ condHolds f .po = !f.getLsbD 2 ∧ condHolds f .pe = f.getLsbD 2
    ∧ condHolds f .p = !f.getLsbD 7 ∧ condHolds f .m = f.getLsbD 7
    ∧ relCondHolds f .nz = condHolds f .nz ∧ relCondHolds f .z = condHolds f .z
    ∧ relCondHolds f .nc = condHolds f .nc ∧ relCondHolds f .c = condHolds f .c

/-- 49_misc.md R431, 48_control_stack.md R388 to R391: `NOP` changes only `PC`; an absolute jump goes to its target, not re-based, whatever
`page`, and an untaken jump falls through. -/
def Obligations.Jumps : Prop :=
  ∀ s : State,
    exec .nop s = .next { s with pc := s.pc + 1 }
    ∧ (∀ nn : Word, exec (.jpNn nn) s = .next { s with pc := nn })
    ∧ (∀ (cc : Cond) (nn : Word),
      exec (.jpCc cc nn) s = .next { s with pc := if condHolds s.f cc then nn else s.pc + 3 })
    ∧ exec .jpHl s = .next { s with pc := s.hl }
    ∧ (∀ x : IndexReg, exec (.jpXy x) s = .next { s with pc := s.index x })

/-- R392, R393, R394: the relative jumps. A taken one lands at the target's offset in the current page, which must be below 4; an
untaken one falls through whatever `page`; `DJNZ` counts `B`. -/
def Obligations.RelativeJumps : Prop :=
  ∀ (s : State) (e : Byte),
    (s.page < 4 →
      exec (.jrE e) s = .next { s with pc := rebase s.page (s.relTarget e) }
      ∧ (∀ cc : RelCond, relCondHolds s.f cc = true →
        exec (.jrCc cc e) s = .next { s with pc := rebase s.page (s.relTarget e) })
      ∧ (s.b ≠ 1 → exec (.djnz e) s = .next { s with b := s.b - 1, pc := rebase s.page (s.relTarget e) }))
    ∧ (∀ cc : RelCond, relCondHolds s.f cc = false → exec (.jrCc cc e) s = .next { s with pc := s.pc + 2 })
    ∧ (s.b = 1 → exec (.djnz e) s = .next { s with b := 0, pc := s.pc + 2 })
    ∧ ((s.relTarget e).toNat : Int) = (s.pc.toNat + 2 + s8 e) % 65536

/-- 48_control_stack.md R395 to R399: a taken call pushes the re-based return address and goes to the target as it is; a taken return loads
`PC` from the stack, re-bases nothing and restores nothing else; an untaken one only falls through. -/
def Obligations.CallsAndReturns : Prop :=
  ((∀ (s : State), s.page < 4 → s.canWriteWord (s.sp - 2) = true →
      (∀ nn : Word, ∃ t, exec (.callNn nn) s = .next t
        ∧ StoredWord s t (s.sp - 2) (rebase s.page (s.pc + 3))
        ∧ t = { s with pc := nn, sp := s.sp - 2, mem := t.mem, written := t.written })
      ∧ (∀ (cc : Cond) (nn : Word), condHolds s.f cc = true → ∃ t, exec (.callCc cc nn) s = .next t
        ∧ StoredWord s t (s.sp - 2) (rebase s.page (s.pc + 3))
        ∧ t = { s with pc := nn, sp := s.sp - 2, mem := t.mem, written := t.written })
      ∧ (∀ n : Fin 8, ∃ t, exec (.rst n) s = .next t
        ∧ StoredWord s t (s.sp - 2) (rebase s.page (s.pc + 1))
        ∧ t = { s with pc := BitVec.ofNat 16 (8 * n.val), sp := s.sp - 2, mem := t.mem, written := t.written }))
    ∧ (∀ (s : State) (cc : Cond) (nn : Word), condHolds s.f cc = false →
      exec (.callCc cc nn) s = .next { s with pc := s.pc + 3 }))
  ∧ ((∀ s : State, s.canReadWord s.sp = true →
      exec .ret s = .next { s with pc := s.wordAt s.sp, sp := s.sp + 2 }
      ∧ (∀ cc : Cond, condHolds s.f cc = true → exec (.retCc cc) s = .next { s with pc := s.wordAt s.sp, sp := s.sp + 2 }))
    ∧ (∀ (s : State) (cc : Cond), condHolds s.f cc = false → exec (.retCc cc) s = .next { s with pc := s.pc + 1 }))

/-- 48_control_stack.md R395, R397, R400, R405, R410, R412: when the instruction lies in the current page, `CALL` then `RET` comes back to
the address after the `CALL`, with `SP` and every byte outside the two stack bytes as before; and a `PUSH` then a `POP` moves the
pair's word, for every two pairs and every `SP`. -/
def Obligations.StackRoundTrips : Prop :=
  (∀ (s : State) (nn : Word), s.page < 4 → (s.pc + 3).toNat / 0x4000 = s.page →
      s.canWriteWord (s.sp - 2) = true → s.canReadWord (s.sp - 2) = true →
      ∃ t, exec (.callNn nn) s = .next t
        ∧ exec .ret t = .next { s with pc := s.pc + 3, mem := t.mem, written := t.written }
        ∧ ∀ k : Word, k ≠ s.sp - 2 → k ≠ s.sp - 1 → t.readByte k = s.readByte k)
  ∧ (∀ (s : State) (p q : StackPair), s.canWriteWord (s.sp - 2) = true → s.canReadWord (s.sp - 2) = true →
      ∃ t, exec (.pushQq p) s = .next t
        ∧ exec (.popQq q) t =
          .next { s.setStackPair q (s.stackPair p) with pc := s.pc + 2, mem := t.mem, written := t.written })

/-- R400: the laws of the banked re-combination. -/
def Obligations.RebaseLaws : Prop :=
  (∀ (page : Nat) (x : Word), page < 4 →
    (rebase page x).toNat = x.toNat % 0x4000 + page * 0x4000
    ∧ (rebase page x = x ↔ x.toNat / 0x4000 = page)
    ∧ page * 0x4000 ≤ (rebase page x).toNat ∧ (rebase page x).toNat ≤ page * 0x4000 + 0x3FFF
    ∧ rebase page (rebase page x) = rebase page x)
  ∧ (∀ (s : State) (x : Word) (k : Word → Outcome State), s.page < 4 → x.toNat / 0x4000 = s.page → withRebase s x k = k x)

/-- 60_exceptions.md R457: a step whose instruction applies `rebase` while `page >= 4` is `fault(PageOutOfRange)`, and no other
instruction is. -/
def Obligations.PageOutOfRange : Prop :=
  ∀ (i : Instr) (s : State) (p : Nat),
    exec i s = .fault (.pageOutOfRange p) ↔ 4 ≤ s.page ∧ p = s.page ∧ appliesRebase s i = true

/-! ## Stack and exchanges -/

/-- 48_control_stack.md R405: the stack primitives and the IR primitives that name them. R410 to R413: `PUSH` and `POP` of the pairs and of
the index registers; `POP AF` replaces all of `F`. -/
def Obligations.PushAndPop : Prop :=
  ((∀ (s : State) (v : Word) (k : State → Outcome State), s.canWriteWord (s.sp - 2) = true →
      ∃ t, push16 s v k = k t ∧ StoredWord s t (s.sp - 2) v
        ∧ t = { s with sp := s.sp - 2, mem := t.mem, written := t.written })
    ∧ (∀ (s : State) (k : Word → State → Outcome State), s.canReadWord s.sp = true →
      pop16 s k = k (s.wordAt s.sp) { s with sp := s.sp + 2 })
    ∧ (∀ (s t : State) (v : Word) (node : Expr),
      (∃ w, callPrim node s .push1 [wordValue v] = .ok (w, t)) ↔ push16 s v (fun u => .next u) = .next t)
    ∧ (∀ (s : State) (h l : Byte) (node : Expr),
      callPrim node s .push2 [byteValue h, byteValue l] = callPrim node s .push1 [wordValue (join h l)]))
  ∧ ((∀ s : State, s.canWriteWord (s.sp - 2) = true →
      (∀ p : StackPair, ∃ t, exec (.pushQq p) s = .next t ∧ StoredWord s t (s.sp - 2) (s.stackPair p)
        ∧ t = { s with pc := s.pc + 1, sp := s.sp - 2, mem := t.mem, written := t.written })
      ∧ (∀ x : IndexReg, ∃ t, exec (.pushXy x) s = .next t ∧ StoredWord s t (s.sp - 2) (s.index x)
        ∧ t = { s with pc := s.pc + 2, sp := s.sp - 2, mem := t.mem, written := t.written }))
    ∧ (∀ s : State, s.canReadWord s.sp = true →
      (∀ p : StackPair, exec (.popQq p) s =
        .next { s.setStackPair p (s.wordAt s.sp) with pc := s.pc + 1, sp := s.sp + 2 })
      ∧ (∀ x : IndexReg, exec (.popXy x) s = .next { s.setIndex x (s.wordAt s.sp) with pc := s.pc + 2, sp := s.sp + 2 })))

/-- R414 to R418: the register exchanges swap exactly the named registers, and done twice they restore the state but for `PC`;
`EX (SP),HL` and `EX (SP),XY` swap the register with the two bytes at `SP`, which is unchanged. -/
def Obligations.Exchanges : Prop :=
  (∀ s : State,
      (∃ t, exec .exAfAf s = .next t ∧ t.a = s.a' ∧ t.f = s.f' ∧ t.a' = s.a ∧ t.f' = s.f
        ∧ t = { s with a := t.a, f := t.f, a' := t.a', f' := t.f', pc := s.pc + 1 }
        ∧ exec .exAfAf t = .next { s with pc := s.pc + 2 })
      ∧ (∃ t, exec .exx s = .next t
        ∧ t.b = s.b' ∧ t.c = s.c' ∧ t.d = s.d' ∧ t.e = s.e' ∧ t.h = s.h' ∧ t.l = s.l'
        ∧ t.b' = s.b ∧ t.c' = s.c ∧ t.d' = s.d ∧ t.e' = s.e ∧ t.h' = s.h ∧ t.l' = s.l
        ∧ t = { s with
            b := t.b, c := t.c, d := t.d, e := t.e, h := t.h, l := t.l
            b' := t.b', c' := t.c', d' := t.d', e' := t.e', h' := t.h', l' := t.l', pc := s.pc + 1 }
        ∧ exec .exx t = .next { s with pc := s.pc + 2 })
      ∧ (∃ t, exec .exDeHl s = .next t ∧ t.de = s.hl ∧ t.hl = s.de
        ∧ t = { s with d := t.d, e := t.e, h := t.h, l := t.l, pc := s.pc + 1 }
        ∧ exec .exDeHl t = .next { s with pc := s.pc + 2 }))
  ∧ (∀ s : State, s.canReadWord s.sp = true → s.canWriteWord s.sp = true →
      (∃ t, exec .exSpHl s = .next t ∧ t.hl = s.wordAt s.sp ∧ StoredWord s t s.sp s.hl
        ∧ t = { s with h := t.h, l := t.l, pc := s.pc + 1, mem := t.mem, written := t.written })
      ∧ (∀ x : IndexReg, ∃ t, exec (.exSpXy x) s = .next t ∧ t.index x = s.wordAt s.sp ∧ StoredWord s t s.sp (s.index x)
        ∧ t = { s.setIndex x (t.index x) with pc := s.pc + 2, mem := t.mem, written := t.written }))

/-- R397, R410 to R413, R417, with 20_memory.md R78 and 60_exceptions.md R458: a stack access outside `READABLE` or `WRITABLE` is
`stuck`; in a call `page` is checked before. -/
def Obligations.StackAccessStuck : Prop :=
  ∀ s : State,
    (s.canWriteWord (s.sp - 2) = false →
      (∀ p : StackPair, exec (.pushQq p) s = .fault .stuck) ∧ (∀ x : IndexReg, exec (.pushXy x) s = .fault .stuck)
      ∧ (s.page < 4 → (∀ nn : Word, exec (.callNn nn) s = .fault .stuck) ∧ (∀ n : Fin 8, exec (.rst n) s = .fault .stuck)
        ∧ (∀ (cc : Cond) (nn : Word), condHolds s.f cc = true → exec (.callCc cc nn) s = .fault .stuck)))
    ∧ (s.canReadWord s.sp = false →
      (∀ p : StackPair, exec (.popQq p) s = .fault .stuck) ∧ (∀ x : IndexReg, exec (.popXy x) s = .fault .stuck)
      ∧ exec .ret s = .fault .stuck ∧ (∀ cc : Cond, condHolds s.f cc = true → exec (.retCc cc) s = .fault .stuck))
    ∧ ((s.canReadWord s.sp && s.canWriteWord s.sp) = false →
      exec .exSpHl s = .fault .stuck ∧ (∀ x : IndexReg, exec (.exSpXy x) s = .fault .stuck))

/-- 49_misc.md R434: `HALT` moves `PC` into the current page, and where `PC` would stay as it is the running state is marked `final`
(70_reset_and_hazards.md R486; log entry 2). From a final state the step only marks `status`, and `status` changes in no other step. -/
def Obligations.HaltAndFinalStates : Prop :=
  ((∀ s : State, s.page < 4 → rebase s.page s.pc ≠ s.pc → exec .halt s = .next { s with pc := rebase s.page s.pc })
    ∧ (∀ s : State, s.page < 4 → rebase s.page s.pc = s.pc → s.status = .running →
      exec .halt s = .next { s with status := .final }))
  ∧ ((∀ s : State, s.AtFinal → step s = .next { s with status := .final })
    ∧ (∀ s t : State, step s = .next t → t.status = s.status ∨ (s.AtFinal ∧ t = { s with status := .final })))

/-! ## The machine -/

/-- 10_state.md R50: where the four bytes at `PC` decode to `i` and the run has written none of `i`'s bytes, a step of a running state
is `exec i`. -/
def Obligations.StepRunsDecodedInstruction : Prop :=
  ∀ (s : State) (i : Instr), s.status = .running →
    decode (s.readByte s.pc) (s.readByte (s.pc + 1)) (s.readByte (s.pc + 2)) (s.readByte (s.pc + 3)) = .ok i →
    (∀ k : Nat, k < i.length → (s.pc + BitVec.ofNat 16 k).toNat ∉ s.written) →
    step s = exec i s

/-- 60_exceptions.md R455, R456, R458, 20_memory.md R88: before any access of the instruction, a step refuses bytes without a row, and then
faults on bytes the run has written, unless the state is final. A step that refuses or faults changes no field but `status`, and a state
whose `status` is not `running` has no further step and keeps its mark (log entry 1). -/
def Obligations.OrderOfOutcomes : Prop :=
  (∀ s : State, s.status = .running →
      (∀ e : DecodeReject,
        decode (s.readByte s.pc) (s.readByte (s.pc + 1)) (s.readByte (s.pc + 2)) (s.readByte (s.pc + 3)) = .error e →
        ∃ bytes, step s = .refused (.notInBlock s.pc bytes) ∧ 1 ≤ bytes.length
          ∧ bytes <+: [s.readByte s.pc, s.readByte (s.pc + 1), s.readByte (s.pc + 2), s.readByte (s.pc + 3)])
      ∧ (∀ (i : Instr) (k : Nat),
        decode (s.readByte s.pc) (s.readByte (s.pc + 1)) (s.readByte (s.pc + 2)) (s.readByte (s.pc + 3)) = .ok i →
        k < i.length → (s.pc + BitVec.ofNat 16 k).toNat ∈ s.written → ¬ s.AtFinal →
        step s = .fault (.selfModifyingCode s.pc)))
  ∧ ((∀ (s : State) (r : Refusal), step s = .refused r → s.record (step s) = { s with status := .refused r })
    ∧ (∀ (s : State) (r : Fault), step s = .fault r → r ≠ .stuck → s.status = .running →
      s.record (step s) = { s with status := .faulted r })
    ∧ (∀ s : State, step s = .fault .stuck → s.record (step s) = s)
    ∧ (∀ s : State, s.status ≠ .running → (∀ t, step s ≠ .next t) ∧ s.record (step s) = s))

/-- 60_exceptions.md R453, R455, R458, 00_scope.md R8: with every address readable and writable and `page` in `0..3`, every instruction
completes; in every other state it completes, is `stuck`, or is `fault(PageOutOfRange)`: no meaning refuses. -/
def Obligations.EveryInstructionCompletes : Prop :=
  (∀ (i : Instr) (s : State), s.allAccessible → s.PageInRange → ∃ t, exec i s = .next t)
  ∧ (∀ (i : Instr) (s : State),
      (∃ t, exec i s = .next t) ∨ exec i s = .fault .stuck ∨ exec i s = .fault (.pageOutOfRange s.page))

/-- 20_memory.md R70, 10_state.md R30: reset memory and the reset `written` are in the canonical form; `status` is `running` and
`written` empty, as 70_reset_and_hazards.md R480 states; `page` is in `0..3` (the model's choice, log entry 5). -/
def Obligations.ResetInv : Prop :=
  State.reset.Inv ∧ State.reset.CleanEntry ∧ State.reset.PageInRange

/-- Every step keeps the canonical form of memory and of `written`, from every state that has it. -/
def Obligations.StepKeepsInv : Prop :=
  ∀ s t : State, s.Inv → step s = .next t → t.Inv

/-- 10_state.md R42, R43, R44: no step writes `IFF1`, `IFF2`, `IM`, `EI_inst`, `halt`, `tstates`, `page` or a launch parameter; a
step takes at most two free values (log entry 4). -/
def Obligations.StepKeepsEnvironment : Prop :=
  ∀ s t : State, step s = .next t →
    t.iff1 = s.iff1 ∧ t.iff2 = s.iff2 ∧ t.im = s.im ∧ t.eiInst = s.eiInst ∧ t.halt = s.halt ∧ t.tstates = s.tstates
    ∧ t.page = s.page ∧ t.params = s.params ∧ s.draws ≤ t.draws ∧ t.draws ≤ s.draws + 2

/-- R47: the special registers, the index halves and `SP` are written by the instructions the table of R47 names and by no other. -/
def Obligations.RegisterWriters : Prop :=
  ∀ (i : Instr) (s t : State), exec i s = .next t →
    (t.i ≠ s.i → i = .ldIA) ∧ (t.r ≠ s.r → i = .ldRefreshA)
    ∧ (t.sp ≠ s.sp → writesSp i = true)
    ∧ (¬(t.ixh = s.ixh ∧ t.ixl = s.ixl) → writesIndex i = some .ix)
    ∧ (¬(t.iyh = s.iyh ∧ t.iyl = s.iyl) → writesIndex i = some .iy)

/-- R35: the instructions outside the first two columns of its second table leave all of `F` unchanged. -/
def Obligations.FlagsUnchanged : Prop :=
  ∀ (i : Instr) (s t : State), exec i s = .next t → writesFlags i = false → t.f = s.f

/-- 20_memory.md R75, R88: only the instructions with a write change a byte of memory, and every byte changed is in `written`
afterwards, which only grows. -/
def Obligations.MemoryWriters : Prop :=
  ∀ (i : Instr) (s t : State), exec i s = .next t →
    (writesMemory i = false → t.mem = s.mem ∧ t.written = s.written)
    ∧ (∀ k : Word, t.readByte k ≠ s.readByte k → k.toNat ∈ t.written)
    ∧ (∀ n : Nat, n ∈ s.written → n ∈ t.written)

/-- 10_state.md R36: but for `EX AF,AF'` and `EXX`, an instruction neither writes the shadow set nor learns anything of it: from two
states that differ only there it ends alike. -/
def Obligations.ShadowSetIsolated : Prop :=
  ∀ (i : Instr) (s t : State), reachesShadow i = false → sameButShadow s t →
    match exec i s with
    | .next s' => ∃ t', exec i t = .next t' ∧ sameButShadow s' t' ∧ sameShadow s s' ∧ sameShadow t t'
    | .fault r => exec i t = .fault r
    | .refused r => exec i t = .refused r

/-- 41_alu_flags.md R180, R199: `UNDOC_POLICY` decides nothing but bits 5 and 3 of `F`, and `S` and `PV` after `BIT`. That `LD A,R`, which
loads a draw (42_load.md R234), loads the same byte under both policies is the model's choice: free values are one function of a counter
(log entry 4), and the loaded byte is the step's first draw (log entry 21). -/
def Obligations.PolicyTouchesOnlyOpenBits : Prop :=
  ∀ (i : Instr) (s : State),
    match exec i { s with params := { s.params with undoc := .z80 } }, exec i { s with params := { s.params with undoc := .draw } } with
    | .next t, .next u =>
      t = { u with f := t.f, draws := t.draws, params := t.params }
      ∧ t.f &&& (if isBitTest i then 0x53 else 0xD7) = u.f &&& (if isBitTest i then 0x53 else 0xD7)
    | .fault q, .fault r => q = r
    | .refused q, .refused r => q = r
    | _, _ => False

/-! ## The synthesis phase -/

/-- 40_ir_fold.md R161 to R165: what the folder folds, that it leaves every other expression as it is, that it is idempotent and that it
preserves meaning. -/
def Obligations.FoldLaws : Prop :=
  ((∀ x y : Int, fold (.binary .shr (.literal (.num x)) (.literal (.num y))) = .literal (.num (shiftRight x y))
      ∧ fold (.binary .band (.literal (.num x)) (.literal (.num y))) = .literal (.num (intAnd x y)))
    ∧ (∀ e : Expr,
      (∀ x y : Int, e ≠ .binary .shr (.literal (.num x)) (.literal (.num y))
        ∧ e ≠ .binary .band (.literal (.num x)) (.literal (.num y))) → fold e = e))
  ∧ (∀ (e : Expr) (c : Ctx), fold (fold e) = fold e ∧ evalExpr (fold e) c = evalExpr e c)

/-- 41_alu_flags.md R181, R182: the flag tables bit by bit, and `Index` reads them (40_ir_fold.md R150). -/
def Obligations.FlagTables : Prop :=
  (∀ v : Byte,
    sz v = (v &&& 0x80) ||| (if v = 0 then 0x40 else 0)
    ∧ szp v = sz v ||| parity v
    ∧ parity v = (if onesOf v % 2 = 0 then 0x04 else 0)
    ∧ sz v &&& 0x28 = 0 ∧ szp v &&& 0x28 = 0)
  ∧ (∀ (v : Byte) (c : Ctx),
    evalExpr (.index .sz (.literal (byteValue v))) c = .ok (byteValue (sz v), c)
    ∧ evalExpr (.index .szp (.literal (byteValue v))) c = .ok (byteValue (szp v), c))

/-- 40_ir_fold.md R146 to R148, 00_scope.md R13: what each operator gives, by two's-complement bits and exact arithmetic, and
`fault(IRRange)` where a result leaves `-2^31 .. 2^31 - 1`; operands left to right; `&&` and `||` stop at the left operand that decides,
`Conditional` and `If` take one branch; an undeclared temporary is `fault(IRUnbound)`; an assignment of a number to an 8-bit register,
`SP`, `PC` or an interrupt flip-flop yields the value written, or is `fault(IRRange)` where the target cannot hold it; `Return(_)` ends a
fragment at once. The model's choices: a value other than 0 or 1 written to a flip-flop is `fault(IRRange)` (log entry 32; R147 names the
8-bit registers, `SP` and `PC`), a `>>` or `&` of two literals is the folded literal (log entry 30), a number is truthy as in `If` (log
entry 26), and `Return(e)` evaluates `e` first (log entry 24). -/
def Obligations.IrEvaluation : Prop :=
  ((∀ (x y : Int) (k : Nat),
      Int.testBit (intAnd x y) k = (Int.testBit x k && Int.testBit y k)
      ∧ Int.testBit (intOr x y) k = (Int.testBit x k || Int.testBit y k)
      ∧ Int.testBit (intXor x y) k = (Int.testBit x k != Int.testBit y k))
    ∧ (∀ (e : Expr) (c d : Ctx) (v : Value), evalExpr e c = .ok (v, d) → v.inIrRange = true)
    ∧ (∀ (n : Int) (c : Ctx), evalExpr (numLit n) c = rangedResult (numLit n) n c))
  ∧ (∀ (l r : Expr) (c d e : Ctx) (x y : Int), evalExpr l c = .ok (.num x, d) → evalExpr r d = .ok (.num y, e) →
    evalExpr (.binary .add l r) c = rangedResult (.binary .add l r) (x + y) e
    ∧ evalExpr (.binary .sub l r) c = rangedResult (.binary .sub l r) (x - y) e
    ∧ evalExpr (.binary .mul l r) c = rangedResult (.binary .mul l r) (x * y) e
    ∧ (0 ≤ x → 0 < y → evalExpr (.binary .mod l r) c = .ok (.num (x % y), e))
    ∧ evalExpr (.binary .band l r) c = .ok (.num (intAnd x y), e)
    ∧ evalExpr (.binary .bor l r) c = .ok (.num (intOr x y), e)
    ∧ evalExpr (.binary .bxor l r) c = .ok (.num (intXor x y), e)
    ∧ (∀ k : Nat, y = k →
      evalExpr (.binary .shl l r) c = rangedResult (.binary .shl l r) (x * 2 ^ k) e
      ∧ evalExpr (.binary .shr l r) c = .ok (.num (x / 2 ^ k), e))
    ∧ evalExpr (.binary .eq l r) c = .ok (.bool (decide (x = y)), e)
    ∧ evalExpr (.binary .ne l r) c = .ok (.bool (decide (x ≠ y)), e)
    ∧ evalExpr (.binary .lt l r) c = .ok (.bool (decide (x < y)), e)
    ∧ evalExpr (.binary .le l r) c = .ok (.bool (decide (x ≤ y)), e)
    ∧ evalExpr (.binary .gt l r) c = .ok (.bool (decide (x > y)), e)
    ∧ evalExpr (.binary .ge l r) c = .ok (.bool (decide (x ≥ y)), e))
  ∧ (∀ (e : Expr) (c d : Ctx) (x : Int), evalExpr e c = .ok (.num x, d) →
    evalExpr (.unary .bnot e) c = .ok (.num (-x - 1), d)
    ∧ evalExpr (.unary .neg e) c = rangedResult (.unary .neg e) (-x) d)
  ∧ (∀ (op : BinOp) (un : UnOp) (l r : Expr) (c d : Ctx) (v : Value) (f : Fault), fold (.binary op l r) = .binary op l r →
    (evalExpr l c = .error f → evalExpr (.binary op l r) c = .error f ∧ evalExpr (.unary un l) c = .error f)
    ∧ (evalExpr l c = .ok (v, d) → evalExpr r d = .error f → evalExpr (.binary op l r) c = .error f))
  ∧ (∀ (l r : Expr) (c d : Ctx),
    (evalExpr l c = .ok (.bool false, d) →
      evalExpr (.unary .lnot l) c = .ok (.bool true, d)
      ∧ evalExpr (.logical .and l r) c = .ok (.bool false, d) ∧ evalExpr (.logical .or l r) c = evalExpr r d
      ∧ ∀ x : Expr, evalExpr (.conditional l x r) c = evalExpr r d)
    ∧ (evalExpr l c = .ok (.bool true, d) →
      evalExpr (.unary .lnot l) c = .ok (.bool false, d)
      ∧ evalExpr (.logical .or l r) c = .ok (.bool true, d) ∧ evalExpr (.logical .and l r) c = evalExpr r d
      ∧ ∀ x : Expr, evalExpr (.conditional l r x) c = evalExpr r d))
  ∧ (∀ (t : Temp) (c : Ctx), c.env.get t = none → evalExpr (tmpE t) c = .error (.irUnbound (tmpE t)))
  ∧ (∀ (t : Temp) (e : Expr) (c d : Ctx) (v : Value), evalExpr e c = .ok (v, d) →
    runStmt (.varDecl t e) c = .ok (false, { d with env := d.env.set t v })
    ∧ evalExpr (tmpE t) { d with env := d.env.set t v } = .ok (v, { d with env := d.env.set t v }))
  ∧ (∀ (op : AssignOp) (target : Target) (bound : Int) (e : Expr) (c d : Ctx) (n : Int),
    target.limit = some bound → evalExpr e c = .ok (.num n, d) →
    ∃ old : Int, d.targetValue target = .ok (.num old)
      ∧ (0 ≤ assignedNum op old n ∧ assignedNum op old n ≤ bound →
        ∃ t, evalExpr (.assign op target e) c = .ok (.num (assignedNum op old n), t)
          ∧ t.targetValue target = .ok (.num (assignedNum op old n)) ∧ t.env = d.env)
      ∧ (¬(0 ≤ assignedNum op old n ∧ assignedNum op old n ≤ bound) →
        evalExpr (.assign op target e) c = .error (.irRange (.assign op target e))))
  ∧ (∀ (e : Expr) (s : Stmt) (alt rest : Stmts) (c d : Ctx),
    (∀ v : Value, evalExpr e c = .ok (v, d) →
      runStmt (.ifElse e s alt) c = (if v = .bool false ∨ v = .num 0 then runStmts alt d else runStmt s d)
      ∧ runStmts (.cons (.exprStmt e) rest) c = runStmts rest d
      ∧ runStmts (.cons (.ret (some e)) rest) c = .ok (true, d))
    ∧ runStmts (.cons (.ret none) rest) c = .ok (true, c)
    ∧ (runStmt s c = .ok (true, d) → runStmts (.cons s rest) c = .ok (true, d))
    ∧ (runStmt s c = .ok (false, d) → runStmts (.cons s rest) c = runStmts rest d)
    ∧ runStmt (.block rest) c = runStmts rest c
    ∧ (∀ f : Fault, evalExpr e c = .error f → runStmts (.cons (.ret (some e)) rest) c = .error f))

/-- 42_load.md R222, R166: `SET16` of a literal word is two literal loads, of its high byte and its low byte, and no shift or mask is
left; of any other expression it is the runtime split, and that has the same effect on the state. -/
def Obligations.Set16Folds : Prop :=
  (∀ (high low : IrReg) (v : Word), set16 high low (numLit v.toNat)
    = [setReg high (numLit (hi v).toNat), setReg low (numLit (lo v).toNat)])
  ∧ (∀ (high low : IrReg) (e : Expr), (∀ v : Value, e ≠ .literal v) → set16 high low e
    = [.varDecl .val e, setReg high (shrE (tmpE .val) 8), setReg low (andE (tmpE .val) (numLit 0xFF))])
  ∧ (∀ (p : IrPair) (v : Word) (c : Ctx),
    runStmts (Stmts.ofList (setPair16 p (numLit v.toNat))) c = .ok (false, { c with st := c.st.setIrPair p v }))
  ∧ (∀ (p : IrPair) (e : Expr) (v : Word) (c d : Ctx), (∀ w : Value, e ≠ .literal w) → evalExpr e c = .ok (wordValue v, d) →
    runStmts (Stmts.ofList (setPair16 p e)) c
      = .ok (false, { d with st := d.st.setIrPair p v, env := d.env.set .val (wordValue v) }))

/-- 60_exceptions.md R450, R451, R454: every row of the opcode table synthesizes without a contract violation, under every launch
parameter, and each well-formed instruction then has its fragment; every other template call raises, with the call; and the first
violation aborts the whole table. 48_control_stack.md R385: in every fragment a write of `pc` is followed at once by a `Return`, an
unconditional transfer ends in that pair, and a conditional one is one `If` whose body ends in it. Which call a row makes is the model's
choice where 30_encoding.md R123 lists none (log entry 29), and so are the calls counted as shapes without an encoding (log entry 23). -/
def Obligations.TableIsBuilt : Prop :=
  ((∀ cfg : Params, TableBuilt cfg)
    ∧ (∀ (cfg : Params) (i : Instr), i.wellFormed = true → ∃ t, buildCall cfg (callOf i) = .ok t)
    ∧ (∀ (cfg : Params) (call : Call), (∀ i : Instr, i.wellFormed = true → callOf i ≠ call) →
      buildCall cfg call = .error { info := call })
    ∧ (∀ (pre : List (Instr × Template)) (i : Instr) (v : ContractViolation) (post : List (Instr × Synth)),
      assemble (pre.map (fun row => (row.1, .ok row.2)) ++ (i, .error v) :: post) = .error v))
  ∧ (∀ (i : Instr) (s : State), i.wellFormed = true → ∃ fr, fragmentOf s i = .ok (some fr) ∧ fr.returnsAfterPc = true)
  ∧ (∀ (s : State) (cc : Cond) (rc : RelCond) (nn : Word) (e : Byte) (n : Fin 8),
    let jumpTail := branch [] (numLit nn.toNat)
    let relativeTail := branch [] (rebaseE (numLit (s.relTarget e).toNat))
    let callTail := branch [callS .push1 [rebaseE (numLit (s.pc + 3).toNat)]] (numLit nn.toNat)
    let returnTail := branch [.varDecl .temp (callE .readMemWord [regE .sp]), bumpSp 2] (tmpE .temp)
    fragmentOf s (.jpNn nn) = .ok (some (Stmts.ofList jumpTail))
    ∧ fragmentOf s (.jpCc cc nn) = .ok (some (Stmts.ofList [ifS (condE cc) jumpTail]))
    ∧ fragmentOf s (.jrE e) = .ok (some (Stmts.ofList relativeTail))
    ∧ fragmentOf s (.jrCc rc e) = .ok (some (Stmts.ofList [ifS (relCondE rc) relativeTail]))
    ∧ fragmentOf s (.djnz e) = .ok (some (Stmts.ofList [setReg .b (andE (subE (regE .b) (numLit 1)) (numLit 0xFF)),
        ifS (.binary .ne (regE .b) (numLit 0)) relativeTail]))
    ∧ fragmentOf s (.callNn nn) = .ok (some (Stmts.ofList callTail))
    ∧ fragmentOf s (.callCc cc nn) = .ok (some (Stmts.ofList [ifS (condE cc) callTail]))
    ∧ fragmentOf s (.rst n) = .ok (some (Stmts.ofList
        (branch [callS .push1 [rebaseE (numLit (s.pc + 1).toNat)]] (numLit (8 * n.val : Nat)))))
    ∧ fragmentOf s .ret = .ok (some (Stmts.ofList returnTail))
    ∧ fragmentOf s (.retCc cc) = .ok (some (Stmts.ofList [ifS (condE cc) returnTail])))

/-- 40_ir_fold.md R153: the IR fragment that the opcode table holds for each well-formed instruction, run from any state by R147 to R149,
has exactly the effect of the row's rule. A `HALT` that would leave a running state as it is is the one exception: its fragment leaves
the state, and `exec` marks it `final` (70_reset_and_hazards.md R486; log entry 2). The trees are the model's own within the shape laws
(log entry 17). -/
def Obligations.TemplateDenotesEffect : Prop :=
  (∀ (i : Instr) (s : State), i.wellFormed = true →
    ¬(i = .halt ∧ s.status = .running ∧ s.page < 4 ∧ rebase s.page s.pc = s.pc) → execIr i s = .ok (some (exec i s)))
  ∧ (∀ s : State, s.page < 4 → rebase s.page s.pc = s.pc → execIr .halt s = .ok (some (.next s)))

/-- 49_misc.md R435: with `HALT_SPEEDUP` disabled the `HALT` fragment is the write of `pc` and the `Return` and nothing else; enabled, the
same after the statement `tstates = 0`; and its effect on the state does not depend on it. R435 fixes only when that statement is there:
the rest of the tree, with the expression that `pc` is assigned, is the model's choice (log entry 17). -/
def Obligations.HaltSpeedup : Prop :=
  ∀ s : State,
    fragmentOf { s with params := { s.params with haltSpeedup := false } } .halt
      = .ok (some (.cons (setPc (rebaseE (andE (subE (numLit (s.pc + 1).toNat) (numLit 1)) (numLit 0xFFFF))))
          (.cons (.ret none) .nil)))
    ∧ fragmentOf { s with params := { s.params with haltSpeedup := true } } .halt
      = .ok (some (.cons (.exprStmt (.assign .set (.identifier (.env .tstates)) (numLit 0)))
          (.cons (setPc (rebaseE (andE (subE (numLit (s.pc + 1).toNat) (numLit 1)) (numLit 0xFFFF)))) (.cons (.ret none) .nil))))
    ∧ (∀ fr gr : Fragment,
      fragmentOf { s with params := { s.params with haltSpeedup := true } } .halt = .ok (some fr) →
      fragmentOf { s with params := { s.params with haltSpeedup := false } } .halt = .ok (some gr) →
      runFragment s 1 fr = runFragment s 1 gr)

end
end

