-- ==== Sys2Proof/Laws/Bits.lean ====
section
/-! SUPPORT. The laws of concatenation and its halves (00_scope.md R11), and of the sum with a displacement (R12). -/

namespace Sys2Proof.Machine

@[simp] theorem hi_join (h l : Byte) : hi (join h l) = h := by
  apply BitVec.eq_of_toNat_eq
  have := h.isLt
  have := l.isLt
  simp only [hi, join, BitVec.toNat_ofNat]
  omega

@[simp] theorem lo_join (h l : Byte) : lo (join h l) = l := by
  apply BitVec.eq_of_toNat_eq
  have := h.isLt
  have := l.isLt
  simp only [lo, join, BitVec.toNat_ofNat]
  omega

@[simp] theorem join_hi_lo (v : Word) : join (hi v) (lo v) = v := by
  apply BitVec.eq_of_toNat_eq
  have := v.isLt
  simp only [hi, lo, join, BitVec.toNat_ofNat]
  omega

theorem join_toNat (h l : Byte) : (join h l).toNat = h.toNat * 256 + l.toNat := by
  have := h.isLt
  have := l.isLt
  simp only [join, BitVec.toNat_ofNat]
  omega

/-- A pair is determined by its halves. -/
theorem join_inj {h h' l l' : Byte} : join h l = join h' l' ↔ h = h' ∧ l = l' := by
  constructor
  · intro e
    exact ⟨by rw [← hi_join h l, e, hi_join], by rw [← lo_join h l, e, lo_join]⟩
  · rintro ⟨rfl, rfl⟩; rfl

/-- The sum of an address and a displacement, modulo `2^16`. -/
theorem addDisp_toNat (base : Word) (d : Byte) :
    ((addDisp base d).toNat : Int) = ((base.toNat : Int) + s8 d) % 65536 := by
  simp only [addDisp, BitVec.toNat_ofInt]
  omega

end Sys2Proof.Machine
end

