-- ==== Sys2Proof/Laws/Ir.lean ====
section
/-! SUPPORT. What the small operations of the IR evaluation give: the range check and the conversions of a value. -/

namespace Sys2Proof.Machine

@[simp] theorem orRange_num (node : Expr) (n : Int) (c : Ctx) : orRange node (some (.num n)) c = rangedResult node n c := by
  simp only [orRange, rangedResult, Value.inIrRange, inIrRange, Bool.and_eq_true, decide_eq_true_eq]

@[simp] theorem orRange_bool (node : Expr) (b : Bool) (c : Ctx) : orRange node (some (.bool b)) c = .ok (.bool b, c) := rfl

@[simp] theorem orRange_none (node : Expr) (c : Ctx) : orRange node none c = .error (.irRange node) := rfl

/-- A result is a value in the range of R146, in the same context. -/
theorem orRange_ok {node : Expr} {o : Option Value} {c d : Ctx} {v : Value} (h : orRange node o c = .ok (v, d)) :
    o = some v ∧ d = c ∧ v.inIrRange = true := by
  unfold orRange at h
  split at h
  · split at h
    · cases h
      exact ⟨rfl, rfl, ‹_›⟩
    · cases h
  · cases h

/-- A temporary or a scalar that is read has the value it holds, inside the range of R146. -/
theorem ident_ok {c : Ctx} {x : Ident} {v : Value} (h : c.ident x = .ok v) : c.held x = .ok v ∧ v.inIrRange = true := by
  unfold Ctx.ident at h
  split at h
  · cases h
  · split at h
    · cases h
      exact ⟨‹_›, ‹_›⟩
    · cases h

@[simp] theorem byteValue_u8 (v : Byte) : (byteValue v).u8 = some v := by
  have := v.isLt
  simp [byteValue, Value.u8]
  omega

@[simp] theorem wordValue_u16 (v : Word) : (wordValue v).u16 = some v := by
  have := v.isLt
  simp [wordValue, Value.u16]
  omega

theorem byteValue_inIrRange (v : Byte) : (byteValue v).inIrRange = true := by
  have := v.isLt
  simp only [byteValue, Value.inIrRange, inIrRange, Bool.and_eq_true, decide_eq_true_eq]
  omega

theorem wordValue_inIrRange (v : Word) : (wordValue v).inIrRange = true := by
  have := v.isLt
  simp only [wordValue, Value.inIrRange, inIrRange, Bool.and_eq_true, decide_eq_true_eq]
  omega

end Sys2Proof.Machine
end

