-- ==== Sys2Proof/Laws/Memory.lean ====
section
/-! SUPPORT. The laws of memory as a list of cells and of `written` as a list of addresses: reading after writing, and that every
operation keeps the canonical form. -/

namespace Sys2Proof.Machine

/-! ## Reading after writing -/

theorem Memory.read_erase_same (m : Memory) (a : Nat) : Memory.read (m.erase a) a = Memory.unlisted := by
  induction m with
  | nil => rfl
  | cons cell rest ih =>
    obtain ⟨k, v⟩ := cell
    by_cases h : k = a
    · simpa [Memory.erase, h] using ih
    · simpa [Memory.erase, h, Memory.read] using ih

theorem Memory.read_erase_other (m : Memory) {a b : Nat} (h : b ≠ a) : Memory.read (m.erase a) b = Memory.read m b := by
  induction m with
  | nil => rfl
  | cons cell rest ih =>
    obtain ⟨k, v⟩ := cell
    simp only [Memory.erase] at ih
    by_cases hk : k = a
    · subst hk; simp [Memory.erase, Memory.read, ih, h.symm]
    · simp [Memory.erase, hk, Memory.read, ih]

/-- No cell of the list has the address. -/
def Memory.Absent (m : Memory) (a : Nat) : Prop := ∀ cell ∈ m, cell.1 ≠ a

theorem Memory.absent_erase (m : Memory) (a : Nat) : Memory.Absent (m.erase a) a := by
  intro cell h
  simp only [Memory.erase, List.mem_filter, bne_iff_ne] at h
  exact h.2

theorem Memory.read_insert_same (m : Memory) (a : Nat) (v : Byte) (h : Memory.Absent m a) :
    Memory.read (m.insert a v) a = v := by
  induction m with
  | nil => simp [Memory.insert, Memory.read]
  | cons cell rest ih =>
    obtain ⟨k, w⟩ := cell
    have hk : k ≠ a := h (k, w) (by simp)
    by_cases hlt : a < k
    · simp [Memory.insert, hlt, Memory.read]
    · simp [Memory.insert, hlt, Memory.read, hk, ih fun c hc => h c (by simp [hc])]

theorem Memory.read_insert_other (m : Memory) {a b : Nat} (v : Byte) (h : b ≠ a) :
    Memory.read (m.insert a v) b = Memory.read m b := by
  induction m with
  | nil => simp [Memory.insert, Memory.read, h.symm]
  | cons cell rest ih =>
    obtain ⟨k, w⟩ := cell
    by_cases hlt : a < k
    · simp [Memory.insert, hlt, Memory.read, h.symm]
    · simp [Memory.insert, hlt, Memory.read, ih]

/-- A read after a write to the same address gives the byte written. -/
@[simp] theorem Memory.read_write_same (m : Memory) (a : Nat) (v : Byte) : Memory.read (m.write a v) a = v := by
  by_cases h : v = Memory.unlisted
  · simp [Memory.write, h, Memory.read_erase_same]
  · simp [Memory.write, h, Memory.read_insert_same _ _ _ (Memory.absent_erase m a)]

/-- A write leaves every other address alone. -/
theorem Memory.read_write_other (m : Memory) {a b : Nat} (v : Byte) (h : b ≠ a) :
    Memory.read (m.write a v) b = Memory.read m b := by
  by_cases hv : v = Memory.unlisted
  · simp [Memory.write, hv, Memory.read_erase_other m h]
  · simp [Memory.write, hv, Memory.read_insert_other _ v h, Memory.read_erase_other m h]

/-! ## The canonical form -/

/-- The canonical form, said of the list: addresses strictly rising, each below `2^16`, no unlisted byte. -/
theorem Memory.wf_iff (m : Memory) :
    Memory.wf m = true ↔ m.Pairwise (fun x y => x.1 < y.1) ∧ ∀ cell ∈ m, cell.1 < 65536 ∧ cell.2 ≠ Memory.unlisted := by
  induction m with
  | nil => simp [Memory.wf]
  | cons cell rest ih =>
    obtain ⟨k, v⟩ := cell
    cases rest with
    | nil => simp [Memory.wf]
    | cons cell' rest' =>
      obtain ⟨k', v'⟩ := cell'
      simp only [Memory.wf, Bool.and_eq_true, decide_eq_true_eq, bne_iff_ne, ih]
      constructor
      · rintro ⟨⟨hk, hv⟩, hp, hall⟩
        refine ⟨List.pairwise_cons.2 ⟨fun y hy => ?_, hp⟩, ?_⟩
        · rcases List.mem_cons.1 hy with rfl | hy'
          · exact hk
          · exact lt_trans hk ((List.pairwise_cons.1 hp).1 y hy')
        · intro c hc
          rcases List.mem_cons.1 hc with rfl | hc'
          · exact ⟨lt_trans hk (hall (k', v') (by simp)).1, hv⟩
          · exact hall c hc'
      · rintro ⟨hp, hall⟩
        obtain ⟨hlt, hp'⟩ := List.pairwise_cons.1 hp
        exact ⟨⟨hlt (k', v') (by simp), (hall (k, v) (by simp)).2⟩, hp', fun c hc => hall c (by simp [hc])⟩

theorem Memory.mem_insert (m : Memory) (a : Nat) (v : Byte) (cell : Host.Cell) :
    cell ∈ m.insert a v ↔ cell = (a, v) ∨ cell ∈ m := by
  induction m with
  | nil => simp [Memory.insert]
  | cons c rest ih =>
    obtain ⟨k, w⟩ := c
    by_cases hlt : a < k
    · simp [Memory.insert, hlt]
    · simp [Memory.insert, hlt, ih]; tauto

theorem Memory.pairwise_insert (m : Memory) (a : Nat) (v : Byte) (hp : m.Pairwise (fun x y => x.1 < y.1))
    (ha : Memory.Absent m a) : (m.insert a v).Pairwise (fun x y => x.1 < y.1) := by
  induction m with
  | nil => simp [Memory.insert]
  | cons c rest ih =>
    obtain ⟨k, w⟩ := c
    obtain ⟨hlt, hp'⟩ := List.pairwise_cons.1 hp
    have hk : k ≠ a := ha (k, w) (by simp)
    by_cases h : a < k
    · simp only [Memory.insert, h, if_true]
      refine List.pairwise_cons.2 ⟨fun y hy => ?_, hp⟩
      rcases List.mem_cons.1 hy with rfl | hy'
      · exact h
      · exact lt_trans h (hlt y hy')
    · simp only [Memory.insert, h, if_false]
      refine List.pairwise_cons.2 ⟨fun y hy => ?_, ih hp' fun c hc => ha c (by simp [hc])⟩
      rcases (Memory.mem_insert rest a v y).1 hy with rfl | hy'
      · exact lt_of_le_of_ne (not_lt.1 h) hk
      · exact hlt y hy'

/-- A write at an address of the space keeps the canonical form. -/
theorem Memory.wf_write (m : Memory) (a : Nat) (v : Byte) (ha : a < 65536) (h : Memory.wf m = true) :
    Memory.wf (m.write a v) = true := by
  obtain ⟨hp, hall⟩ := (Memory.wf_iff m).1 h
  have hpe : (m.erase a).Pairwise (fun x y => x.1 < y.1) := hp.filter _
  have halle : ∀ cell ∈ m.erase a, cell.1 < 65536 ∧ cell.2 ≠ Memory.unlisted := fun c hc =>
    hall c (List.mem_filter.1 hc).1
  by_cases hv : v = Memory.unlisted
  · simp only [Memory.write, hv, if_true]; exact (Memory.wf_iff _).2 ⟨hpe, halle⟩
  · simp only [Memory.write, hv, if_false]
    refine (Memory.wf_iff _).2 ⟨Memory.pairwise_insert _ _ _ hpe (Memory.absent_erase m a), fun c hc => ?_⟩
    rcases (Memory.mem_insert _ a v c).1 hc with rfl | hc'
    · exact ⟨ha, hv⟩
    · exact halle c hc'

/-- The reset memory has the canonical form. -/
theorem Memory.wf_reset : Memory.wf State.reset.mem = true := rfl

/-! ## `written` -/

theorem mem_addAddr (l : List Nat) (a n : Nat) : n ∈ addAddr l a ↔ n = a ∨ n ∈ l := by
  induction l with
  | nil => simp [addAddr]
  | cons k rest ih =>
    unfold addAddr
    split
    · simp
    · split
      · rename_i h; subst h; simp
      · simp [ih]; tauto

/-- The canonical form, said of the list. -/
theorem addrsWf_iff (l : List Nat) : addrsWf l = true ↔ l.Pairwise (· < ·) ∧ ∀ n ∈ l, n < 65536 := by
  induction l with
  | nil => simp [addrsWf]
  | cons k rest ih =>
    cases rest with
    | nil => simp [addrsWf]
    | cons k' rest' =>
      simp only [addrsWf, Bool.and_eq_true, decide_eq_true_eq, ih]
      constructor
      · rintro ⟨hk, hp, hall⟩
        refine ⟨List.pairwise_cons.2 ⟨fun y hy => ?_, hp⟩, ?_⟩
        · rcases List.mem_cons.1 hy with rfl | hy'
          · exact hk
          · exact lt_trans hk ((List.pairwise_cons.1 hp).1 y hy')
        · intro c hc
          rcases List.mem_cons.1 hc with rfl | hc'
          · exact lt_trans hk (hall k' (by simp))
          · exact hall c hc'
      · rintro ⟨hp, hall⟩
        obtain ⟨hlt, hp'⟩ := List.pairwise_cons.1 hp
        exact ⟨hlt k' (by simp), hp', fun c hc => hall c (by simp [hc])⟩

/-- Adding an address of the space keeps the canonical form. -/
theorem addrsWf_addAddr (l : List Nat) (a : Nat) (ha : a < 65536) (h : addrsWf l = true) : addrsWf (addAddr l a) = true := by
  rw [addrsWf_iff] at h ⊢
  obtain ⟨hp, hall⟩ := h
  refine ⟨?_, fun n hn => ?_⟩
  · induction l with
    | nil => simp [addAddr]
    | cons k rest ih =>
      obtain ⟨hlt, hp'⟩ := List.pairwise_cons.1 hp
      unfold addAddr
      split
      · rename_i hak
        refine List.pairwise_cons.2 ⟨fun y hy => ?_, hp⟩
        rcases List.mem_cons.1 hy with rfl | hy'
        · exact hak
        · exact lt_trans hak (hlt y hy')
      · split
        · exact hp
        · rename_i hnlt hne
          refine List.pairwise_cons.2 ⟨fun y hy => ?_, ih hp' fun n hn => hall n (by simp [hn])⟩
          rcases (mem_addAddr rest a y).1 hy with rfl | hy'
          · omega
          · exact hlt y hy'
  · rcases (mem_addAddr l a n).1 hn with rfl | hn'
    · exact ha
    · exact hall n hn'

/-! ## The state's memory -/

/-- The byte written is the byte read. -/
@[simp] theorem State.readByte_writeByte_same (s : State) (a : Word) (v : Byte) : (s.writeByte a v).readByte a = v :=
  Memory.read_write_same s.mem a.toNat v

/-- Every other byte is as before. -/
theorem State.readByte_writeByte_other (s : State) {a b : Word} (v : Byte) (h : b ≠ a) :
    (s.writeByte a v).readByte b = s.readByte b :=
  Memory.read_write_other s.mem v fun e => h (BitVec.eq_of_toNat_eq e)

/-- `writeByte` adds exactly the address it writes to `written` (20_memory.md R88). -/
theorem State.mem_written_writeByte (s : State) (a : Word) (v : Byte) (n : Nat) :
    n ∈ (s.writeByte a v).written ↔ n = a.toNat ∨ n ∈ s.written :=
  mem_addAddr s.written a.toNat n

/-- `writeByte` keeps both canonical forms. -/
theorem State.wf_writeByte (s : State) (a : Word) (v : Byte) (h : Memory.wf s.mem = true ∧ addrsWf s.written = true) :
    Memory.wf (s.writeByte a v).mem = true ∧ addrsWf (s.writeByte a v).written = true :=
  ⟨Memory.wf_write _ _ _ a.isLt h.1, addrsWf_addAddr _ _ a.isLt h.2⟩

/-- A launch byte keeps both canonical forms. -/
theorem State.wf_launchByte (s : State) (a : Word) (v : Byte) (h : Memory.wf s.mem = true ∧ addrsWf s.written = true) :
    Memory.wf (s.launchByte a v).mem = true ∧ addrsWf (s.launchByte a v).written = true := by
  refine ⟨Memory.wf_write _ _ _ a.isLt h.1, ?_⟩
  obtain ⟨hp, hall⟩ := (addrsWf_iff _).1 h.2
  exact (addrsWf_iff _).2 ⟨hp.filter _, fun n hn => hall n (List.mem_filter.1 hn).1⟩

end Sys2Proof.Machine
end

