-- ==== Sys2Proof/Laws/State.lean ====
section
/-! SUPPORT. One lemma for each field that an update of the state leaves alone, and one for each field that it writes. -/

namespace Sys2Proof.Machine

/-! ## `setReg8` -/

@[simp] theorem State.setReg8_f (s : State) (r : Reg8) (v : Byte) : (s.setReg8 r v).f = s.f := by cases r <;> rfl
@[simp] theorem State.setReg8_a' (s : State) (r : Reg8) (v : Byte) : (s.setReg8 r v).a' = s.a' := by cases r <;> rfl
@[simp] theorem State.setReg8_f' (s : State) (r : Reg8) (v : Byte) : (s.setReg8 r v).f' = s.f' := by cases r <;> rfl
@[simp] theorem State.setReg8_b' (s : State) (r : Reg8) (v : Byte) : (s.setReg8 r v).b' = s.b' := by cases r <;> rfl
@[simp] theorem State.setReg8_c' (s : State) (r : Reg8) (v : Byte) : (s.setReg8 r v).c' = s.c' := by cases r <;> rfl
@[simp] theorem State.setReg8_d' (s : State) (r : Reg8) (v : Byte) : (s.setReg8 r v).d' = s.d' := by cases r <;> rfl
@[simp] theorem State.setReg8_e' (s : State) (r : Reg8) (v : Byte) : (s.setReg8 r v).e' = s.e' := by cases r <;> rfl
@[simp] theorem State.setReg8_h' (s : State) (r : Reg8) (v : Byte) : (s.setReg8 r v).h' = s.h' := by cases r <;> rfl
@[simp] theorem State.setReg8_l' (s : State) (r : Reg8) (v : Byte) : (s.setReg8 r v).l' = s.l' := by cases r <;> rfl
@[simp] theorem State.setReg8_ixh (s : State) (r : Reg8) (v : Byte) : (s.setReg8 r v).ixh = s.ixh := by cases r <;> rfl
@[simp] theorem State.setReg8_ixl (s : State) (r : Reg8) (v : Byte) : (s.setReg8 r v).ixl = s.ixl := by cases r <;> rfl
@[simp] theorem State.setReg8_iyh (s : State) (r : Reg8) (v : Byte) : (s.setReg8 r v).iyh = s.iyh := by cases r <;> rfl
@[simp] theorem State.setReg8_iyl (s : State) (r : Reg8) (v : Byte) : (s.setReg8 r v).iyl = s.iyl := by cases r <;> rfl
@[simp] theorem State.setReg8_sp (s : State) (r : Reg8) (v : Byte) : (s.setReg8 r v).sp = s.sp := by cases r <;> rfl
@[simp] theorem State.setReg8_pc (s : State) (r : Reg8) (v : Byte) : (s.setReg8 r v).pc = s.pc := by cases r <;> rfl
@[simp] theorem State.setReg8_i (s : State) (r : Reg8) (v : Byte) : (s.setReg8 r v).i = s.i := by cases r <;> rfl
@[simp] theorem State.setReg8_r (s : State) (r : Reg8) (v : Byte) : (s.setReg8 r v).r = s.r := by cases r <;> rfl
@[simp] theorem State.setReg8_iff1 (s : State) (r : Reg8) (v : Byte) : (s.setReg8 r v).iff1 = s.iff1 := by cases r <;> rfl
@[simp] theorem State.setReg8_iff2 (s : State) (r : Reg8) (v : Byte) : (s.setReg8 r v).iff2 = s.iff2 := by cases r <;> rfl
@[simp] theorem State.setReg8_im (s : State) (r : Reg8) (v : Byte) : (s.setReg8 r v).im = s.im := by cases r <;> rfl
@[simp] theorem State.setReg8_eiInst (s : State) (r : Reg8) (v : Byte) : (s.setReg8 r v).eiInst = s.eiInst := by cases r <;> rfl
@[simp] theorem State.setReg8_halt (s : State) (r : Reg8) (v : Byte) : (s.setReg8 r v).halt = s.halt := by cases r <;> rfl
@[simp] theorem State.setReg8_tstates (s : State) (r : Reg8) (v : Byte) : (s.setReg8 r v).tstates = s.tstates := by cases r <;> rfl
@[simp] theorem State.setReg8_page (s : State) (r : Reg8) (v : Byte) : (s.setReg8 r v).page = s.page := by cases r <;> rfl
@[simp] theorem State.setReg8_mem (s : State) (r : Reg8) (v : Byte) : (s.setReg8 r v).mem = s.mem := by cases r <;> rfl
@[simp] theorem State.setReg8_written (s : State) (r : Reg8) (v : Byte) : (s.setReg8 r v).written = s.written := by cases r <;> rfl
@[simp] theorem State.setReg8_status (s : State) (r : Reg8) (v : Byte) : (s.setReg8 r v).status = s.status := by cases r <;> rfl
@[simp] theorem State.setReg8_params (s : State) (r : Reg8) (v : Byte) : (s.setReg8 r v).params = s.params := by cases r <;> rfl
@[simp] theorem State.setReg8_draws (s : State) (r : Reg8) (v : Byte) : (s.setReg8 r v).draws = s.draws := by cases r <;> rfl

/-! ## `setBc` -/

@[simp] theorem State.setBc_a (s : State) (v : Word) : (s.setBc v).a = s.a := rfl
@[simp] theorem State.setBc_f (s : State) (v : Word) : (s.setBc v).f = s.f := rfl
@[simp] theorem State.setBc_d (s : State) (v : Word) : (s.setBc v).d = s.d := rfl
@[simp] theorem State.setBc_e (s : State) (v : Word) : (s.setBc v).e = s.e := rfl
@[simp] theorem State.setBc_h (s : State) (v : Word) : (s.setBc v).h = s.h := rfl
@[simp] theorem State.setBc_l (s : State) (v : Word) : (s.setBc v).l = s.l := rfl
@[simp] theorem State.setBc_a' (s : State) (v : Word) : (s.setBc v).a' = s.a' := rfl
@[simp] theorem State.setBc_f' (s : State) (v : Word) : (s.setBc v).f' = s.f' := rfl
@[simp] theorem State.setBc_b' (s : State) (v : Word) : (s.setBc v).b' = s.b' := rfl
@[simp] theorem State.setBc_c' (s : State) (v : Word) : (s.setBc v).c' = s.c' := rfl
@[simp] theorem State.setBc_d' (s : State) (v : Word) : (s.setBc v).d' = s.d' := rfl
@[simp] theorem State.setBc_e' (s : State) (v : Word) : (s.setBc v).e' = s.e' := rfl
@[simp] theorem State.setBc_h' (s : State) (v : Word) : (s.setBc v).h' = s.h' := rfl
@[simp] theorem State.setBc_l' (s : State) (v : Word) : (s.setBc v).l' = s.l' := rfl
@[simp] theorem State.setBc_ixh (s : State) (v : Word) : (s.setBc v).ixh = s.ixh := rfl
@[simp] theorem State.setBc_ixl (s : State) (v : Word) : (s.setBc v).ixl = s.ixl := rfl
@[simp] theorem State.setBc_iyh (s : State) (v : Word) : (s.setBc v).iyh = s.iyh := rfl
@[simp] theorem State.setBc_iyl (s : State) (v : Word) : (s.setBc v).iyl = s.iyl := rfl
@[simp] theorem State.setBc_sp (s : State) (v : Word) : (s.setBc v).sp = s.sp := rfl
@[simp] theorem State.setBc_pc (s : State) (v : Word) : (s.setBc v).pc = s.pc := rfl
@[simp] theorem State.setBc_i (s : State) (v : Word) : (s.setBc v).i = s.i := rfl
@[simp] theorem State.setBc_r (s : State) (v : Word) : (s.setBc v).r = s.r := rfl
@[simp] theorem State.setBc_iff1 (s : State) (v : Word) : (s.setBc v).iff1 = s.iff1 := rfl
@[simp] theorem State.setBc_iff2 (s : State) (v : Word) : (s.setBc v).iff2 = s.iff2 := rfl
@[simp] theorem State.setBc_im (s : State) (v : Word) : (s.setBc v).im = s.im := rfl
@[simp] theorem State.setBc_eiInst (s : State) (v : Word) : (s.setBc v).eiInst = s.eiInst := rfl
@[simp] theorem State.setBc_halt (s : State) (v : Word) : (s.setBc v).halt = s.halt := rfl
@[simp] theorem State.setBc_tstates (s : State) (v : Word) : (s.setBc v).tstates = s.tstates := rfl
@[simp] theorem State.setBc_page (s : State) (v : Word) : (s.setBc v).page = s.page := rfl
@[simp] theorem State.setBc_mem (s : State) (v : Word) : (s.setBc v).mem = s.mem := rfl
@[simp] theorem State.setBc_written (s : State) (v : Word) : (s.setBc v).written = s.written := rfl
@[simp] theorem State.setBc_status (s : State) (v : Word) : (s.setBc v).status = s.status := rfl
@[simp] theorem State.setBc_params (s : State) (v : Word) : (s.setBc v).params = s.params := rfl
@[simp] theorem State.setBc_draws (s : State) (v : Word) : (s.setBc v).draws = s.draws := rfl

/-! ## `setDe` -/

@[simp] theorem State.setDe_a (s : State) (v : Word) : (s.setDe v).a = s.a := rfl
@[simp] theorem State.setDe_f (s : State) (v : Word) : (s.setDe v).f = s.f := rfl
@[simp] theorem State.setDe_b (s : State) (v : Word) : (s.setDe v).b = s.b := rfl
@[simp] theorem State.setDe_c (s : State) (v : Word) : (s.setDe v).c = s.c := rfl
@[simp] theorem State.setDe_h (s : State) (v : Word) : (s.setDe v).h = s.h := rfl
@[simp] theorem State.setDe_l (s : State) (v : Word) : (s.setDe v).l = s.l := rfl
@[simp] theorem State.setDe_a' (s : State) (v : Word) : (s.setDe v).a' = s.a' := rfl
@[simp] theorem State.setDe_f' (s : State) (v : Word) : (s.setDe v).f' = s.f' := rfl
@[simp] theorem State.setDe_b' (s : State) (v : Word) : (s.setDe v).b' = s.b' := rfl
@[simp] theorem State.setDe_c' (s : State) (v : Word) : (s.setDe v).c' = s.c' := rfl
@[simp] theorem State.setDe_d' (s : State) (v : Word) : (s.setDe v).d' = s.d' := rfl
@[simp] theorem State.setDe_e' (s : State) (v : Word) : (s.setDe v).e' = s.e' := rfl
@[simp] theorem State.setDe_h' (s : State) (v : Word) : (s.setDe v).h' = s.h' := rfl
@[simp] theorem State.setDe_l' (s : State) (v : Word) : (s.setDe v).l' = s.l' := rfl
@[simp] theorem State.setDe_ixh (s : State) (v : Word) : (s.setDe v).ixh = s.ixh := rfl
@[simp] theorem State.setDe_ixl (s : State) (v : Word) : (s.setDe v).ixl = s.ixl := rfl
@[simp] theorem State.setDe_iyh (s : State) (v : Word) : (s.setDe v).iyh = s.iyh := rfl
@[simp] theorem State.setDe_iyl (s : State) (v : Word) : (s.setDe v).iyl = s.iyl := rfl
@[simp] theorem State.setDe_sp (s : State) (v : Word) : (s.setDe v).sp = s.sp := rfl
@[simp] theorem State.setDe_pc (s : State) (v : Word) : (s.setDe v).pc = s.pc := rfl
@[simp] theorem State.setDe_i (s : State) (v : Word) : (s.setDe v).i = s.i := rfl
@[simp] theorem State.setDe_r (s : State) (v : Word) : (s.setDe v).r = s.r := rfl
@[simp] theorem State.setDe_iff1 (s : State) (v : Word) : (s.setDe v).iff1 = s.iff1 := rfl
@[simp] theorem State.setDe_iff2 (s : State) (v : Word) : (s.setDe v).iff2 = s.iff2 := rfl
@[simp] theorem State.setDe_im (s : State) (v : Word) : (s.setDe v).im = s.im := rfl
@[simp] theorem State.setDe_eiInst (s : State) (v : Word) : (s.setDe v).eiInst = s.eiInst := rfl
@[simp] theorem State.setDe_halt (s : State) (v : Word) : (s.setDe v).halt = s.halt := rfl
@[simp] theorem State.setDe_tstates (s : State) (v : Word) : (s.setDe v).tstates = s.tstates := rfl
@[simp] theorem State.setDe_page (s : State) (v : Word) : (s.setDe v).page = s.page := rfl
@[simp] theorem State.setDe_mem (s : State) (v : Word) : (s.setDe v).mem = s.mem := rfl
@[simp] theorem State.setDe_written (s : State) (v : Word) : (s.setDe v).written = s.written := rfl
@[simp] theorem State.setDe_status (s : State) (v : Word) : (s.setDe v).status = s.status := rfl
@[simp] theorem State.setDe_params (s : State) (v : Word) : (s.setDe v).params = s.params := rfl
@[simp] theorem State.setDe_draws (s : State) (v : Word) : (s.setDe v).draws = s.draws := rfl

/-! ## `setHl` -/

@[simp] theorem State.setHl_a (s : State) (v : Word) : (s.setHl v).a = s.a := rfl
@[simp] theorem State.setHl_f (s : State) (v : Word) : (s.setHl v).f = s.f := rfl
@[simp] theorem State.setHl_b (s : State) (v : Word) : (s.setHl v).b = s.b := rfl
@[simp] theorem State.setHl_c (s : State) (v : Word) : (s.setHl v).c = s.c := rfl
@[simp] theorem State.setHl_d (s : State) (v : Word) : (s.setHl v).d = s.d := rfl
@[simp] theorem State.setHl_e (s : State) (v : Word) : (s.setHl v).e = s.e := rfl
@[simp] theorem State.setHl_a' (s : State) (v : Word) : (s.setHl v).a' = s.a' := rfl
@[simp] theorem State.setHl_f' (s : State) (v : Word) : (s.setHl v).f' = s.f' := rfl
@[simp] theorem State.setHl_b' (s : State) (v : Word) : (s.setHl v).b' = s.b' := rfl
@[simp] theorem State.setHl_c' (s : State) (v : Word) : (s.setHl v).c' = s.c' := rfl
@[simp] theorem State.setHl_d' (s : State) (v : Word) : (s.setHl v).d' = s.d' := rfl
@[simp] theorem State.setHl_e' (s : State) (v : Word) : (s.setHl v).e' = s.e' := rfl
@[simp] theorem State.setHl_h' (s : State) (v : Word) : (s.setHl v).h' = s.h' := rfl
@[simp] theorem State.setHl_l' (s : State) (v : Word) : (s.setHl v).l' = s.l' := rfl
@[simp] theorem State.setHl_ixh (s : State) (v : Word) : (s.setHl v).ixh = s.ixh := rfl
@[simp] theorem State.setHl_ixl (s : State) (v : Word) : (s.setHl v).ixl = s.ixl := rfl
@[simp] theorem State.setHl_iyh (s : State) (v : Word) : (s.setHl v).iyh = s.iyh := rfl
@[simp] theorem State.setHl_iyl (s : State) (v : Word) : (s.setHl v).iyl = s.iyl := rfl
@[simp] theorem State.setHl_sp (s : State) (v : Word) : (s.setHl v).sp = s.sp := rfl
@[simp] theorem State.setHl_pc (s : State) (v : Word) : (s.setHl v).pc = s.pc := rfl
@[simp] theorem State.setHl_i (s : State) (v : Word) : (s.setHl v).i = s.i := rfl
@[simp] theorem State.setHl_r (s : State) (v : Word) : (s.setHl v).r = s.r := rfl
@[simp] theorem State.setHl_iff1 (s : State) (v : Word) : (s.setHl v).iff1 = s.iff1 := rfl
@[simp] theorem State.setHl_iff2 (s : State) (v : Word) : (s.setHl v).iff2 = s.iff2 := rfl
@[simp] theorem State.setHl_im (s : State) (v : Word) : (s.setHl v).im = s.im := rfl
@[simp] theorem State.setHl_eiInst (s : State) (v : Word) : (s.setHl v).eiInst = s.eiInst := rfl
@[simp] theorem State.setHl_halt (s : State) (v : Word) : (s.setHl v).halt = s.halt := rfl
@[simp] theorem State.setHl_tstates (s : State) (v : Word) : (s.setHl v).tstates = s.tstates := rfl
@[simp] theorem State.setHl_page (s : State) (v : Word) : (s.setHl v).page = s.page := rfl
@[simp] theorem State.setHl_mem (s : State) (v : Word) : (s.setHl v).mem = s.mem := rfl
@[simp] theorem State.setHl_written (s : State) (v : Word) : (s.setHl v).written = s.written := rfl
@[simp] theorem State.setHl_status (s : State) (v : Word) : (s.setHl v).status = s.status := rfl
@[simp] theorem State.setHl_params (s : State) (v : Word) : (s.setHl v).params = s.params := rfl
@[simp] theorem State.setHl_draws (s : State) (v : Word) : (s.setHl v).draws = s.draws := rfl

/-! ## `setAf` -/

@[simp] theorem State.setAf_b (s : State) (v : Word) : (s.setAf v).b = s.b := rfl
@[simp] theorem State.setAf_c (s : State) (v : Word) : (s.setAf v).c = s.c := rfl
@[simp] theorem State.setAf_d (s : State) (v : Word) : (s.setAf v).d = s.d := rfl
@[simp] theorem State.setAf_e (s : State) (v : Word) : (s.setAf v).e = s.e := rfl
@[simp] theorem State.setAf_h (s : State) (v : Word) : (s.setAf v).h = s.h := rfl
@[simp] theorem State.setAf_l (s : State) (v : Word) : (s.setAf v).l = s.l := rfl
@[simp] theorem State.setAf_a' (s : State) (v : Word) : (s.setAf v).a' = s.a' := rfl
@[simp] theorem State.setAf_f' (s : State) (v : Word) : (s.setAf v).f' = s.f' := rfl
@[simp] theorem State.setAf_b' (s : State) (v : Word) : (s.setAf v).b' = s.b' := rfl
@[simp] theorem State.setAf_c' (s : State) (v : Word) : (s.setAf v).c' = s.c' := rfl
@[simp] theorem State.setAf_d' (s : State) (v : Word) : (s.setAf v).d' = s.d' := rfl
@[simp] theorem State.setAf_e' (s : State) (v : Word) : (s.setAf v).e' = s.e' := rfl
@[simp] theorem State.setAf_h' (s : State) (v : Word) : (s.setAf v).h' = s.h' := rfl
@[simp] theorem State.setAf_l' (s : State) (v : Word) : (s.setAf v).l' = s.l' := rfl
@[simp] theorem State.setAf_ixh (s : State) (v : Word) : (s.setAf v).ixh = s.ixh := rfl
@[simp] theorem State.setAf_ixl (s : State) (v : Word) : (s.setAf v).ixl = s.ixl := rfl
@[simp] theorem State.setAf_iyh (s : State) (v : Word) : (s.setAf v).iyh = s.iyh := rfl
@[simp] theorem State.setAf_iyl (s : State) (v : Word) : (s.setAf v).iyl = s.iyl := rfl
@[simp] theorem State.setAf_sp (s : State) (v : Word) : (s.setAf v).sp = s.sp := rfl
@[simp] theorem State.setAf_pc (s : State) (v : Word) : (s.setAf v).pc = s.pc := rfl
@[simp] theorem State.setAf_i (s : State) (v : Word) : (s.setAf v).i = s.i := rfl
@[simp] theorem State.setAf_r (s : State) (v : Word) : (s.setAf v).r = s.r := rfl
@[simp] theorem State.setAf_iff1 (s : State) (v : Word) : (s.setAf v).iff1 = s.iff1 := rfl
@[simp] theorem State.setAf_iff2 (s : State) (v : Word) : (s.setAf v).iff2 = s.iff2 := rfl
@[simp] theorem State.setAf_im (s : State) (v : Word) : (s.setAf v).im = s.im := rfl
@[simp] theorem State.setAf_eiInst (s : State) (v : Word) : (s.setAf v).eiInst = s.eiInst := rfl
@[simp] theorem State.setAf_halt (s : State) (v : Word) : (s.setAf v).halt = s.halt := rfl
@[simp] theorem State.setAf_tstates (s : State) (v : Word) : (s.setAf v).tstates = s.tstates := rfl
@[simp] theorem State.setAf_page (s : State) (v : Word) : (s.setAf v).page = s.page := rfl
@[simp] theorem State.setAf_mem (s : State) (v : Word) : (s.setAf v).mem = s.mem := rfl
@[simp] theorem State.setAf_written (s : State) (v : Word) : (s.setAf v).written = s.written := rfl
@[simp] theorem State.setAf_status (s : State) (v : Word) : (s.setAf v).status = s.status := rfl
@[simp] theorem State.setAf_params (s : State) (v : Word) : (s.setAf v).params = s.params := rfl
@[simp] theorem State.setAf_draws (s : State) (v : Word) : (s.setAf v).draws = s.draws := rfl

/-! ## `setHalf` -/

@[simp] theorem State.setHalf_a (s : State) (x : IndexReg) (u : IndexHalf) (v : Byte) : (s.setHalf x u v).a = s.a := by cases x <;> cases u <;> rfl
@[simp] theorem State.setHalf_f (s : State) (x : IndexReg) (u : IndexHalf) (v : Byte) : (s.setHalf x u v).f = s.f := by cases x <;> cases u <;> rfl
@[simp] theorem State.setHalf_b (s : State) (x : IndexReg) (u : IndexHalf) (v : Byte) : (s.setHalf x u v).b = s.b := by cases x <;> cases u <;> rfl
@[simp] theorem State.setHalf_c (s : State) (x : IndexReg) (u : IndexHalf) (v : Byte) : (s.setHalf x u v).c = s.c := by cases x <;> cases u <;> rfl
@[simp] theorem State.setHalf_d (s : State) (x : IndexReg) (u : IndexHalf) (v : Byte) : (s.setHalf x u v).d = s.d := by cases x <;> cases u <;> rfl
@[simp] theorem State.setHalf_e (s : State) (x : IndexReg) (u : IndexHalf) (v : Byte) : (s.setHalf x u v).e = s.e := by cases x <;> cases u <;> rfl
@[simp] theorem State.setHalf_h (s : State) (x : IndexReg) (u : IndexHalf) (v : Byte) : (s.setHalf x u v).h = s.h := by cases x <;> cases u <;> rfl
@[simp] theorem State.setHalf_l (s : State) (x : IndexReg) (u : IndexHalf) (v : Byte) : (s.setHalf x u v).l = s.l := by cases x <;> cases u <;> rfl
@[simp] theorem State.setHalf_a' (s : State) (x : IndexReg) (u : IndexHalf) (v : Byte) : (s.setHalf x u v).a' = s.a' := by cases x <;> cases u <;> rfl
@[simp] theorem State.setHalf_f' (s : State) (x : IndexReg) (u : IndexHalf) (v : Byte) : (s.setHalf x u v).f' = s.f' := by cases x <;> cases u <;> rfl
@[simp] theorem State.setHalf_b' (s : State) (x : IndexReg) (u : IndexHalf) (v : Byte) : (s.setHalf x u v).b' = s.b' := by cases x <;> cases u <;> rfl
@[simp] theorem State.setHalf_c' (s : State) (x : IndexReg) (u : IndexHalf) (v : Byte) : (s.setHalf x u v).c' = s.c' := by cases x <;> cases u <;> rfl
@[simp] theorem State.setHalf_d' (s : State) (x : IndexReg) (u : IndexHalf) (v : Byte) : (s.setHalf x u v).d' = s.d' := by cases x <;> cases u <;> rfl
@[simp] theorem State.setHalf_e' (s : State) (x : IndexReg) (u : IndexHalf) (v : Byte) : (s.setHalf x u v).e' = s.e' := by cases x <;> cases u <;> rfl
@[simp] theorem State.setHalf_h' (s : State) (x : IndexReg) (u : IndexHalf) (v : Byte) : (s.setHalf x u v).h' = s.h' := by cases x <;> cases u <;> rfl
@[simp] theorem State.setHalf_l' (s : State) (x : IndexReg) (u : IndexHalf) (v : Byte) : (s.setHalf x u v).l' = s.l' := by cases x <;> cases u <;> rfl
@[simp] theorem State.setHalf_sp (s : State) (x : IndexReg) (u : IndexHalf) (v : Byte) : (s.setHalf x u v).sp = s.sp := by cases x <;> cases u <;> rfl
@[simp] theorem State.setHalf_pc (s : State) (x : IndexReg) (u : IndexHalf) (v : Byte) : (s.setHalf x u v).pc = s.pc := by cases x <;> cases u <;> rfl
@[simp] theorem State.setHalf_i (s : State) (x : IndexReg) (u : IndexHalf) (v : Byte) : (s.setHalf x u v).i = s.i := by cases x <;> cases u <;> rfl
@[simp] theorem State.setHalf_r (s : State) (x : IndexReg) (u : IndexHalf) (v : Byte) : (s.setHalf x u v).r = s.r := by cases x <;> cases u <;> rfl
@[simp] theorem State.setHalf_iff1 (s : State) (x : IndexReg) (u : IndexHalf) (v : Byte) : (s.setHalf x u v).iff1 = s.iff1 := by cases x <;> cases u <;> rfl
@[simp] theorem State.setHalf_iff2 (s : State) (x : IndexReg) (u : IndexHalf) (v : Byte) : (s.setHalf x u v).iff2 = s.iff2 := by cases x <;> cases u <;> rfl
@[simp] theorem State.setHalf_im (s : State) (x : IndexReg) (u : IndexHalf) (v : Byte) : (s.setHalf x u v).im = s.im := by cases x <;> cases u <;> rfl
@[simp] theorem State.setHalf_eiInst (s : State) (x : IndexReg) (u : IndexHalf) (v : Byte) : (s.setHalf x u v).eiInst = s.eiInst := by cases x <;> cases u <;> rfl
@[simp] theorem State.setHalf_halt (s : State) (x : IndexReg) (u : IndexHalf) (v : Byte) : (s.setHalf x u v).halt = s.halt := by cases x <;> cases u <;> rfl
@[simp] theorem State.setHalf_tstates (s : State) (x : IndexReg) (u : IndexHalf) (v : Byte) : (s.setHalf x u v).tstates = s.tstates := by cases x <;> cases u <;> rfl
@[simp] theorem State.setHalf_page (s : State) (x : IndexReg) (u : IndexHalf) (v : Byte) : (s.setHalf x u v).page = s.page := by cases x <;> cases u <;> rfl
@[simp] theorem State.setHalf_mem (s : State) (x : IndexReg) (u : IndexHalf) (v : Byte) : (s.setHalf x u v).mem = s.mem := by cases x <;> cases u <;> rfl
@[simp] theorem State.setHalf_written (s : State) (x : IndexReg) (u : IndexHalf) (v : Byte) : (s.setHalf x u v).written = s.written := by cases x <;> cases u <;> rfl
@[simp] theorem State.setHalf_status (s : State) (x : IndexReg) (u : IndexHalf) (v : Byte) : (s.setHalf x u v).status = s.status := by cases x <;> cases u <;> rfl
@[simp] theorem State.setHalf_params (s : State) (x : IndexReg) (u : IndexHalf) (v : Byte) : (s.setHalf x u v).params = s.params := by cases x <;> cases u <;> rfl
@[simp] theorem State.setHalf_draws (s : State) (x : IndexReg) (u : IndexHalf) (v : Byte) : (s.setHalf x u v).draws = s.draws := by cases x <;> cases u <;> rfl

/-! ## `setIndex` -/

@[simp] theorem State.setIndex_a (s : State) (x : IndexReg) (v : Word) : (s.setIndex x v).a = s.a := by cases x <;> rfl
@[simp] theorem State.setIndex_f (s : State) (x : IndexReg) (v : Word) : (s.setIndex x v).f = s.f := by cases x <;> rfl
@[simp] theorem State.setIndex_b (s : State) (x : IndexReg) (v : Word) : (s.setIndex x v).b = s.b := by cases x <;> rfl
@[simp] theorem State.setIndex_c (s : State) (x : IndexReg) (v : Word) : (s.setIndex x v).c = s.c := by cases x <;> rfl
@[simp] theorem State.setIndex_d (s : State) (x : IndexReg) (v : Word) : (s.setIndex x v).d = s.d := by cases x <;> rfl
@[simp] theorem State.setIndex_e (s : State) (x : IndexReg) (v : Word) : (s.setIndex x v).e = s.e := by cases x <;> rfl
@[simp] theorem State.setIndex_h (s : State) (x : IndexReg) (v : Word) : (s.setIndex x v).h = s.h := by cases x <;> rfl
@[simp] theorem State.setIndex_l (s : State) (x : IndexReg) (v : Word) : (s.setIndex x v).l = s.l := by cases x <;> rfl
@[simp] theorem State.setIndex_a' (s : State) (x : IndexReg) (v : Word) : (s.setIndex x v).a' = s.a' := by cases x <;> rfl
@[simp] theorem State.setIndex_f' (s : State) (x : IndexReg) (v : Word) : (s.setIndex x v).f' = s.f' := by cases x <;> rfl
@[simp] theorem State.setIndex_b' (s : State) (x : IndexReg) (v : Word) : (s.setIndex x v).b' = s.b' := by cases x <;> rfl
@[simp] theorem State.setIndex_c' (s : State) (x : IndexReg) (v : Word) : (s.setIndex x v).c' = s.c' := by cases x <;> rfl
@[simp] theorem State.setIndex_d' (s : State) (x : IndexReg) (v : Word) : (s.setIndex x v).d' = s.d' := by cases x <;> rfl
@[simp] theorem State.setIndex_e' (s : State) (x : IndexReg) (v : Word) : (s.setIndex x v).e' = s.e' := by cases x <;> rfl
@[simp] theorem State.setIndex_h' (s : State) (x : IndexReg) (v : Word) : (s.setIndex x v).h' = s.h' := by cases x <;> rfl
@[simp] theorem State.setIndex_l' (s : State) (x : IndexReg) (v : Word) : (s.setIndex x v).l' = s.l' := by cases x <;> rfl
@[simp] theorem State.setIndex_sp (s : State) (x : IndexReg) (v : Word) : (s.setIndex x v).sp = s.sp := by cases x <;> rfl
@[simp] theorem State.setIndex_pc (s : State) (x : IndexReg) (v : Word) : (s.setIndex x v).pc = s.pc := by cases x <;> rfl
@[simp] theorem State.setIndex_i (s : State) (x : IndexReg) (v : Word) : (s.setIndex x v).i = s.i := by cases x <;> rfl
@[simp] theorem State.setIndex_r (s : State) (x : IndexReg) (v : Word) : (s.setIndex x v).r = s.r := by cases x <;> rfl
@[simp] theorem State.setIndex_iff1 (s : State) (x : IndexReg) (v : Word) : (s.setIndex x v).iff1 = s.iff1 := by cases x <;> rfl
@[simp] theorem State.setIndex_iff2 (s : State) (x : IndexReg) (v : Word) : (s.setIndex x v).iff2 = s.iff2 := by cases x <;> rfl
@[simp] theorem State.setIndex_im (s : State) (x : IndexReg) (v : Word) : (s.setIndex x v).im = s.im := by cases x <;> rfl
@[simp] theorem State.setIndex_eiInst (s : State) (x : IndexReg) (v : Word) : (s.setIndex x v).eiInst = s.eiInst := by cases x <;> rfl
@[simp] theorem State.setIndex_halt (s : State) (x : IndexReg) (v : Word) : (s.setIndex x v).halt = s.halt := by cases x <;> rfl
@[simp] theorem State.setIndex_tstates (s : State) (x : IndexReg) (v : Word) : (s.setIndex x v).tstates = s.tstates := by cases x <;> rfl
@[simp] theorem State.setIndex_page (s : State) (x : IndexReg) (v : Word) : (s.setIndex x v).page = s.page := by cases x <;> rfl
@[simp] theorem State.setIndex_mem (s : State) (x : IndexReg) (v : Word) : (s.setIndex x v).mem = s.mem := by cases x <;> rfl
@[simp] theorem State.setIndex_written (s : State) (x : IndexReg) (v : Word) : (s.setIndex x v).written = s.written := by cases x <;> rfl
@[simp] theorem State.setIndex_status (s : State) (x : IndexReg) (v : Word) : (s.setIndex x v).status = s.status := by cases x <;> rfl
@[simp] theorem State.setIndex_params (s : State) (x : IndexReg) (v : Word) : (s.setIndex x v).params = s.params := by cases x <;> rfl
@[simp] theorem State.setIndex_draws (s : State) (x : IndexReg) (v : Word) : (s.setIndex x v).draws = s.draws := by cases x <;> rfl

/-! ## `setPair` -/

@[simp] theorem State.setPair_a (s : State) (p : RegPair) (v : Word) : (s.setPair p v).a = s.a := by cases p <;> rfl
@[simp] theorem State.setPair_f (s : State) (p : RegPair) (v : Word) : (s.setPair p v).f = s.f := by cases p <;> rfl
@[simp] theorem State.setPair_a' (s : State) (p : RegPair) (v : Word) : (s.setPair p v).a' = s.a' := by cases p <;> rfl
@[simp] theorem State.setPair_f' (s : State) (p : RegPair) (v : Word) : (s.setPair p v).f' = s.f' := by cases p <;> rfl
@[simp] theorem State.setPair_b' (s : State) (p : RegPair) (v : Word) : (s.setPair p v).b' = s.b' := by cases p <;> rfl
@[simp] theorem State.setPair_c' (s : State) (p : RegPair) (v : Word) : (s.setPair p v).c' = s.c' := by cases p <;> rfl
@[simp] theorem State.setPair_d' (s : State) (p : RegPair) (v : Word) : (s.setPair p v).d' = s.d' := by cases p <;> rfl
@[simp] theorem State.setPair_e' (s : State) (p : RegPair) (v : Word) : (s.setPair p v).e' = s.e' := by cases p <;> rfl
@[simp] theorem State.setPair_h' (s : State) (p : RegPair) (v : Word) : (s.setPair p v).h' = s.h' := by cases p <;> rfl
@[simp] theorem State.setPair_l' (s : State) (p : RegPair) (v : Word) : (s.setPair p v).l' = s.l' := by cases p <;> rfl
@[simp] theorem State.setPair_ixh (s : State) (p : RegPair) (v : Word) : (s.setPair p v).ixh = s.ixh := by cases p <;> rfl
@[simp] theorem State.setPair_ixl (s : State) (p : RegPair) (v : Word) : (s.setPair p v).ixl = s.ixl := by cases p <;> rfl
@[simp] theorem State.setPair_iyh (s : State) (p : RegPair) (v : Word) : (s.setPair p v).iyh = s.iyh := by cases p <;> rfl
@[simp] theorem State.setPair_iyl (s : State) (p : RegPair) (v : Word) : (s.setPair p v).iyl = s.iyl := by cases p <;> rfl
@[simp] theorem State.setPair_pc (s : State) (p : RegPair) (v : Word) : (s.setPair p v).pc = s.pc := by cases p <;> rfl
@[simp] theorem State.setPair_i (s : State) (p : RegPair) (v : Word) : (s.setPair p v).i = s.i := by cases p <;> rfl
@[simp] theorem State.setPair_r (s : State) (p : RegPair) (v : Word) : (s.setPair p v).r = s.r := by cases p <;> rfl
@[simp] theorem State.setPair_iff1 (s : State) (p : RegPair) (v : Word) : (s.setPair p v).iff1 = s.iff1 := by cases p <;> rfl
@[simp] theorem State.setPair_iff2 (s : State) (p : RegPair) (v : Word) : (s.setPair p v).iff2 = s.iff2 := by cases p <;> rfl
@[simp] theorem State.setPair_im (s : State) (p : RegPair) (v : Word) : (s.setPair p v).im = s.im := by cases p <;> rfl
@[simp] theorem State.setPair_eiInst (s : State) (p : RegPair) (v : Word) : (s.setPair p v).eiInst = s.eiInst := by cases p <;> rfl
@[simp] theorem State.setPair_halt (s : State) (p : RegPair) (v : Word) : (s.setPair p v).halt = s.halt := by cases p <;> rfl
@[simp] theorem State.setPair_tstates (s : State) (p : RegPair) (v : Word) : (s.setPair p v).tstates = s.tstates := by cases p <;> rfl
@[simp] theorem State.setPair_page (s : State) (p : RegPair) (v : Word) : (s.setPair p v).page = s.page := by cases p <;> rfl
@[simp] theorem State.setPair_mem (s : State) (p : RegPair) (v : Word) : (s.setPair p v).mem = s.mem := by cases p <;> rfl
@[simp] theorem State.setPair_written (s : State) (p : RegPair) (v : Word) : (s.setPair p v).written = s.written := by cases p <;> rfl
@[simp] theorem State.setPair_status (s : State) (p : RegPair) (v : Word) : (s.setPair p v).status = s.status := by cases p <;> rfl
@[simp] theorem State.setPair_params (s : State) (p : RegPair) (v : Word) : (s.setPair p v).params = s.params := by cases p <;> rfl
@[simp] theorem State.setPair_draws (s : State) (p : RegPair) (v : Word) : (s.setPair p v).draws = s.draws := by cases p <;> rfl

/-! ## `setStackPair` -/

@[simp] theorem State.setStackPair_a' (s : State) (p : StackPair) (v : Word) : (s.setStackPair p v).a' = s.a' := by cases p <;> rfl
@[simp] theorem State.setStackPair_f' (s : State) (p : StackPair) (v : Word) : (s.setStackPair p v).f' = s.f' := by cases p <;> rfl
@[simp] theorem State.setStackPair_b' (s : State) (p : StackPair) (v : Word) : (s.setStackPair p v).b' = s.b' := by cases p <;> rfl
@[simp] theorem State.setStackPair_c' (s : State) (p : StackPair) (v : Word) : (s.setStackPair p v).c' = s.c' := by cases p <;> rfl
@[simp] theorem State.setStackPair_d' (s : State) (p : StackPair) (v : Word) : (s.setStackPair p v).d' = s.d' := by cases p <;> rfl
@[simp] theorem State.setStackPair_e' (s : State) (p : StackPair) (v : Word) : (s.setStackPair p v).e' = s.e' := by cases p <;> rfl
@[simp] theorem State.setStackPair_h' (s : State) (p : StackPair) (v : Word) : (s.setStackPair p v).h' = s.h' := by cases p <;> rfl
@[simp] theorem State.setStackPair_l' (s : State) (p : StackPair) (v : Word) : (s.setStackPair p v).l' = s.l' := by cases p <;> rfl
@[simp] theorem State.setStackPair_ixh (s : State) (p : StackPair) (v : Word) : (s.setStackPair p v).ixh = s.ixh := by cases p <;> rfl
@[simp] theorem State.setStackPair_ixl (s : State) (p : StackPair) (v : Word) : (s.setStackPair p v).ixl = s.ixl := by cases p <;> rfl
@[simp] theorem State.setStackPair_iyh (s : State) (p : StackPair) (v : Word) : (s.setStackPair p v).iyh = s.iyh := by cases p <;> rfl
@[simp] theorem State.setStackPair_iyl (s : State) (p : StackPair) (v : Word) : (s.setStackPair p v).iyl = s.iyl := by cases p <;> rfl
@[simp] theorem State.setStackPair_sp (s : State) (p : StackPair) (v : Word) : (s.setStackPair p v).sp = s.sp := by cases p <;> rfl
@[simp] theorem State.setStackPair_pc (s : State) (p : StackPair) (v : Word) : (s.setStackPair p v).pc = s.pc := by cases p <;> rfl
@[simp] theorem State.setStackPair_i (s : State) (p : StackPair) (v : Word) : (s.setStackPair p v).i = s.i := by cases p <;> rfl
@[simp] theorem State.setStackPair_r (s : State) (p : StackPair) (v : Word) : (s.setStackPair p v).r = s.r := by cases p <;> rfl
@[simp] theorem State.setStackPair_iff1 (s : State) (p : StackPair) (v : Word) : (s.setStackPair p v).iff1 = s.iff1 := by cases p <;> rfl
@[simp] theorem State.setStackPair_iff2 (s : State) (p : StackPair) (v : Word) : (s.setStackPair p v).iff2 = s.iff2 := by cases p <;> rfl
@[simp] theorem State.setStackPair_im (s : State) (p : StackPair) (v : Word) : (s.setStackPair p v).im = s.im := by cases p <;> rfl
@[simp] theorem State.setStackPair_eiInst (s : State) (p : StackPair) (v : Word) : (s.setStackPair p v).eiInst = s.eiInst := by cases p <;> rfl
@[simp] theorem State.setStackPair_halt (s : State) (p : StackPair) (v : Word) : (s.setStackPair p v).halt = s.halt := by cases p <;> rfl
@[simp] theorem State.setStackPair_tstates (s : State) (p : StackPair) (v : Word) : (s.setStackPair p v).tstates = s.tstates := by cases p <;> rfl
@[simp] theorem State.setStackPair_page (s : State) (p : StackPair) (v : Word) : (s.setStackPair p v).page = s.page := by cases p <;> rfl
@[simp] theorem State.setStackPair_mem (s : State) (p : StackPair) (v : Word) : (s.setStackPair p v).mem = s.mem := by cases p <;> rfl
@[simp] theorem State.setStackPair_written (s : State) (p : StackPair) (v : Word) : (s.setStackPair p v).written = s.written := by cases p <;> rfl
@[simp] theorem State.setStackPair_status (s : State) (p : StackPair) (v : Word) : (s.setStackPair p v).status = s.status := by cases p <;> rfl
@[simp] theorem State.setStackPair_params (s : State) (p : StackPair) (v : Word) : (s.setStackPair p v).params = s.params := by cases p <;> rfl
@[simp] theorem State.setStackPair_draws (s : State) (p : StackPair) (v : Word) : (s.setStackPair p v).draws = s.draws := by cases p <;> rfl

/-! ## `setRho` -/

@[simp] theorem State.setRho_f (s : State) (x : IndexReg) (t : Rho) (v : Byte) : (s.setRho x t v).f = s.f := by cases t <;> cases x <;> rfl
@[simp] theorem State.setRho_h (s : State) (x : IndexReg) (t : Rho) (v : Byte) : (s.setRho x t v).h = s.h := by cases t <;> cases x <;> rfl
@[simp] theorem State.setRho_l (s : State) (x : IndexReg) (t : Rho) (v : Byte) : (s.setRho x t v).l = s.l := by cases t <;> cases x <;> rfl
@[simp] theorem State.setRho_a' (s : State) (x : IndexReg) (t : Rho) (v : Byte) : (s.setRho x t v).a' = s.a' := by cases t <;> cases x <;> rfl
@[simp] theorem State.setRho_f' (s : State) (x : IndexReg) (t : Rho) (v : Byte) : (s.setRho x t v).f' = s.f' := by cases t <;> cases x <;> rfl
@[simp] theorem State.setRho_b' (s : State) (x : IndexReg) (t : Rho) (v : Byte) : (s.setRho x t v).b' = s.b' := by cases t <;> cases x <;> rfl
@[simp] theorem State.setRho_c' (s : State) (x : IndexReg) (t : Rho) (v : Byte) : (s.setRho x t v).c' = s.c' := by cases t <;> cases x <;> rfl
@[simp] theorem State.setRho_d' (s : State) (x : IndexReg) (t : Rho) (v : Byte) : (s.setRho x t v).d' = s.d' := by cases t <;> cases x <;> rfl
@[simp] theorem State.setRho_e' (s : State) (x : IndexReg) (t : Rho) (v : Byte) : (s.setRho x t v).e' = s.e' := by cases t <;> cases x <;> rfl
@[simp] theorem State.setRho_h' (s : State) (x : IndexReg) (t : Rho) (v : Byte) : (s.setRho x t v).h' = s.h' := by cases t <;> cases x <;> rfl
@[simp] theorem State.setRho_l' (s : State) (x : IndexReg) (t : Rho) (v : Byte) : (s.setRho x t v).l' = s.l' := by cases t <;> cases x <;> rfl
@[simp] theorem State.setRho_sp (s : State) (x : IndexReg) (t : Rho) (v : Byte) : (s.setRho x t v).sp = s.sp := by cases t <;> cases x <;> rfl
@[simp] theorem State.setRho_pc (s : State) (x : IndexReg) (t : Rho) (v : Byte) : (s.setRho x t v).pc = s.pc := by cases t <;> cases x <;> rfl
@[simp] theorem State.setRho_i (s : State) (x : IndexReg) (t : Rho) (v : Byte) : (s.setRho x t v).i = s.i := by cases t <;> cases x <;> rfl
@[simp] theorem State.setRho_r (s : State) (x : IndexReg) (t : Rho) (v : Byte) : (s.setRho x t v).r = s.r := by cases t <;> cases x <;> rfl
@[simp] theorem State.setRho_iff1 (s : State) (x : IndexReg) (t : Rho) (v : Byte) : (s.setRho x t v).iff1 = s.iff1 := by cases t <;> cases x <;> rfl
@[simp] theorem State.setRho_iff2 (s : State) (x : IndexReg) (t : Rho) (v : Byte) : (s.setRho x t v).iff2 = s.iff2 := by cases t <;> cases x <;> rfl
@[simp] theorem State.setRho_im (s : State) (x : IndexReg) (t : Rho) (v : Byte) : (s.setRho x t v).im = s.im := by cases t <;> cases x <;> rfl
@[simp] theorem State.setRho_eiInst (s : State) (x : IndexReg) (t : Rho) (v : Byte) : (s.setRho x t v).eiInst = s.eiInst := by cases t <;> cases x <;> rfl
@[simp] theorem State.setRho_halt (s : State) (x : IndexReg) (t : Rho) (v : Byte) : (s.setRho x t v).halt = s.halt := by cases t <;> cases x <;> rfl
@[simp] theorem State.setRho_tstates (s : State) (x : IndexReg) (t : Rho) (v : Byte) : (s.setRho x t v).tstates = s.tstates := by cases t <;> cases x <;> rfl
@[simp] theorem State.setRho_page (s : State) (x : IndexReg) (t : Rho) (v : Byte) : (s.setRho x t v).page = s.page := by cases t <;> cases x <;> rfl
@[simp] theorem State.setRho_mem (s : State) (x : IndexReg) (t : Rho) (v : Byte) : (s.setRho x t v).mem = s.mem := by cases t <;> cases x <;> rfl
@[simp] theorem State.setRho_written (s : State) (x : IndexReg) (t : Rho) (v : Byte) : (s.setRho x t v).written = s.written := by cases t <;> cases x <;> rfl
@[simp] theorem State.setRho_status (s : State) (x : IndexReg) (t : Rho) (v : Byte) : (s.setRho x t v).status = s.status := by cases t <;> cases x <;> rfl
@[simp] theorem State.setRho_params (s : State) (x : IndexReg) (t : Rho) (v : Byte) : (s.setRho x t v).params = s.params := by cases t <;> cases x <;> rfl
@[simp] theorem State.setRho_draws (s : State) (x : IndexReg) (t : Rho) (v : Byte) : (s.setRho x t v).draws = s.draws := by cases t <;> cases x <;> rfl

/-! ## `writeByte` -/

@[simp] theorem State.writeByte_a (s : State) (a : Word) (v : Byte) : (s.writeByte a v).a = s.a := rfl
@[simp] theorem State.writeByte_f (s : State) (a : Word) (v : Byte) : (s.writeByte a v).f = s.f := rfl
@[simp] theorem State.writeByte_b (s : State) (a : Word) (v : Byte) : (s.writeByte a v).b = s.b := rfl
@[simp] theorem State.writeByte_c (s : State) (a : Word) (v : Byte) : (s.writeByte a v).c = s.c := rfl
@[simp] theorem State.writeByte_d (s : State) (a : Word) (v : Byte) : (s.writeByte a v).d = s.d := rfl
@[simp] theorem State.writeByte_e (s : State) (a : Word) (v : Byte) : (s.writeByte a v).e = s.e := rfl
@[simp] theorem State.writeByte_h (s : State) (a : Word) (v : Byte) : (s.writeByte a v).h = s.h := rfl
@[simp] theorem State.writeByte_l (s : State) (a : Word) (v : Byte) : (s.writeByte a v).l = s.l := rfl
@[simp] theorem State.writeByte_a' (s : State) (a : Word) (v : Byte) : (s.writeByte a v).a' = s.a' := rfl
@[simp] theorem State.writeByte_f' (s : State) (a : Word) (v : Byte) : (s.writeByte a v).f' = s.f' := rfl
@[simp] theorem State.writeByte_b' (s : State) (a : Word) (v : Byte) : (s.writeByte a v).b' = s.b' := rfl
@[simp] theorem State.writeByte_c' (s : State) (a : Word) (v : Byte) : (s.writeByte a v).c' = s.c' := rfl
@[simp] theorem State.writeByte_d' (s : State) (a : Word) (v : Byte) : (s.writeByte a v).d' = s.d' := rfl
@[simp] theorem State.writeByte_e' (s : State) (a : Word) (v : Byte) : (s.writeByte a v).e' = s.e' := rfl
@[simp] theorem State.writeByte_h' (s : State) (a : Word) (v : Byte) : (s.writeByte a v).h' = s.h' := rfl
@[simp] theorem State.writeByte_l' (s : State) (a : Word) (v : Byte) : (s.writeByte a v).l' = s.l' := rfl
@[simp] theorem State.writeByte_ixh (s : State) (a : Word) (v : Byte) : (s.writeByte a v).ixh = s.ixh := rfl
@[simp] theorem State.writeByte_ixl (s : State) (a : Word) (v : Byte) : (s.writeByte a v).ixl = s.ixl := rfl
@[simp] theorem State.writeByte_iyh (s : State) (a : Word) (v : Byte) : (s.writeByte a v).iyh = s.iyh := rfl
@[simp] theorem State.writeByte_iyl (s : State) (a : Word) (v : Byte) : (s.writeByte a v).iyl = s.iyl := rfl
@[simp] theorem State.writeByte_sp (s : State) (a : Word) (v : Byte) : (s.writeByte a v).sp = s.sp := rfl
@[simp] theorem State.writeByte_pc (s : State) (a : Word) (v : Byte) : (s.writeByte a v).pc = s.pc := rfl
@[simp] theorem State.writeByte_i (s : State) (a : Word) (v : Byte) : (s.writeByte a v).i = s.i := rfl
@[simp] theorem State.writeByte_r (s : State) (a : Word) (v : Byte) : (s.writeByte a v).r = s.r := rfl
@[simp] theorem State.writeByte_iff1 (s : State) (a : Word) (v : Byte) : (s.writeByte a v).iff1 = s.iff1 := rfl
@[simp] theorem State.writeByte_iff2 (s : State) (a : Word) (v : Byte) : (s.writeByte a v).iff2 = s.iff2 := rfl
@[simp] theorem State.writeByte_im (s : State) (a : Word) (v : Byte) : (s.writeByte a v).im = s.im := rfl
@[simp] theorem State.writeByte_eiInst (s : State) (a : Word) (v : Byte) : (s.writeByte a v).eiInst = s.eiInst := rfl
@[simp] theorem State.writeByte_halt (s : State) (a : Word) (v : Byte) : (s.writeByte a v).halt = s.halt := rfl
@[simp] theorem State.writeByte_tstates (s : State) (a : Word) (v : Byte) : (s.writeByte a v).tstates = s.tstates := rfl
@[simp] theorem State.writeByte_page (s : State) (a : Word) (v : Byte) : (s.writeByte a v).page = s.page := rfl
@[simp] theorem State.writeByte_status (s : State) (a : Word) (v : Byte) : (s.writeByte a v).status = s.status := rfl
@[simp] theorem State.writeByte_params (s : State) (a : Word) (v : Byte) : (s.writeByte a v).params = s.params := rfl
@[simp] theorem State.writeByte_draws (s : State) (a : Word) (v : Byte) : (s.writeByte a v).draws = s.draws := rfl

/-! ## `afterDraw` -/

@[simp] theorem State.afterDraw_a (s : State) : (s.afterDraw).a = s.a := rfl
@[simp] theorem State.afterDraw_f (s : State) : (s.afterDraw).f = s.f := rfl
@[simp] theorem State.afterDraw_b (s : State) : (s.afterDraw).b = s.b := rfl
@[simp] theorem State.afterDraw_c (s : State) : (s.afterDraw).c = s.c := rfl
@[simp] theorem State.afterDraw_d (s : State) : (s.afterDraw).d = s.d := rfl
@[simp] theorem State.afterDraw_e (s : State) : (s.afterDraw).e = s.e := rfl
@[simp] theorem State.afterDraw_h (s : State) : (s.afterDraw).h = s.h := rfl
@[simp] theorem State.afterDraw_l (s : State) : (s.afterDraw).l = s.l := rfl
@[simp] theorem State.afterDraw_a' (s : State) : (s.afterDraw).a' = s.a' := rfl
@[simp] theorem State.afterDraw_f' (s : State) : (s.afterDraw).f' = s.f' := rfl
@[simp] theorem State.afterDraw_b' (s : State) : (s.afterDraw).b' = s.b' := rfl
@[simp] theorem State.afterDraw_c' (s : State) : (s.afterDraw).c' = s.c' := rfl
@[simp] theorem State.afterDraw_d' (s : State) : (s.afterDraw).d' = s.d' := rfl
@[simp] theorem State.afterDraw_e' (s : State) : (s.afterDraw).e' = s.e' := rfl
@[simp] theorem State.afterDraw_h' (s : State) : (s.afterDraw).h' = s.h' := rfl
@[simp] theorem State.afterDraw_l' (s : State) : (s.afterDraw).l' = s.l' := rfl
@[simp] theorem State.afterDraw_ixh (s : State) : (s.afterDraw).ixh = s.ixh := rfl
@[simp] theorem State.afterDraw_ixl (s : State) : (s.afterDraw).ixl = s.ixl := rfl
@[simp] theorem State.afterDraw_iyh (s : State) : (s.afterDraw).iyh = s.iyh := rfl
@[simp] theorem State.afterDraw_iyl (s : State) : (s.afterDraw).iyl = s.iyl := rfl
@[simp] theorem State.afterDraw_sp (s : State) : (s.afterDraw).sp = s.sp := rfl
@[simp] theorem State.afterDraw_pc (s : State) : (s.afterDraw).pc = s.pc := rfl
@[simp] theorem State.afterDraw_i (s : State) : (s.afterDraw).i = s.i := rfl
@[simp] theorem State.afterDraw_r (s : State) : (s.afterDraw).r = s.r := rfl
@[simp] theorem State.afterDraw_iff1 (s : State) : (s.afterDraw).iff1 = s.iff1 := rfl
@[simp] theorem State.afterDraw_iff2 (s : State) : (s.afterDraw).iff2 = s.iff2 := rfl
@[simp] theorem State.afterDraw_im (s : State) : (s.afterDraw).im = s.im := rfl
@[simp] theorem State.afterDraw_eiInst (s : State) : (s.afterDraw).eiInst = s.eiInst := rfl
@[simp] theorem State.afterDraw_halt (s : State) : (s.afterDraw).halt = s.halt := rfl
@[simp] theorem State.afterDraw_tstates (s : State) : (s.afterDraw).tstates = s.tstates := rfl
@[simp] theorem State.afterDraw_page (s : State) : (s.afterDraw).page = s.page := rfl
@[simp] theorem State.afterDraw_mem (s : State) : (s.afterDraw).mem = s.mem := rfl
@[simp] theorem State.afterDraw_written (s : State) : (s.afterDraw).written = s.written := rfl
@[simp] theorem State.afterDraw_status (s : State) : (s.afterDraw).status = s.status := rfl
@[simp] theorem State.afterDraw_params (s : State) : (s.afterDraw).params = s.params := rfl

/-! ## `setFlags` -/

@[simp] theorem State.setFlags_a (s : State) (base src : Byte) : (s.setFlags base src).a = s.a := by unfold State.setFlags; split <;> rfl
@[simp] theorem State.setFlags_b (s : State) (base src : Byte) : (s.setFlags base src).b = s.b := by unfold State.setFlags; split <;> rfl
@[simp] theorem State.setFlags_c (s : State) (base src : Byte) : (s.setFlags base src).c = s.c := by unfold State.setFlags; split <;> rfl
@[simp] theorem State.setFlags_d (s : State) (base src : Byte) : (s.setFlags base src).d = s.d := by unfold State.setFlags; split <;> rfl
@[simp] theorem State.setFlags_e (s : State) (base src : Byte) : (s.setFlags base src).e = s.e := by unfold State.setFlags; split <;> rfl
@[simp] theorem State.setFlags_h (s : State) (base src : Byte) : (s.setFlags base src).h = s.h := by unfold State.setFlags; split <;> rfl
@[simp] theorem State.setFlags_l (s : State) (base src : Byte) : (s.setFlags base src).l = s.l := by unfold State.setFlags; split <;> rfl
@[simp] theorem State.setFlags_a' (s : State) (base src : Byte) : (s.setFlags base src).a' = s.a' := by unfold State.setFlags; split <;> rfl
@[simp] theorem State.setFlags_f' (s : State) (base src : Byte) : (s.setFlags base src).f' = s.f' := by unfold State.setFlags; split <;> rfl
@[simp] theorem State.setFlags_b' (s : State) (base src : Byte) : (s.setFlags base src).b' = s.b' := by unfold State.setFlags; split <;> rfl
@[simp] theorem State.setFlags_c' (s : State) (base src : Byte) : (s.setFlags base src).c' = s.c' := by unfold State.setFlags; split <;> rfl
@[simp] theorem State.setFlags_d' (s : State) (base src : Byte) : (s.setFlags base src).d' = s.d' := by unfold State.setFlags; split <;> rfl
@[simp] theorem State.setFlags_e' (s : State) (base src : Byte) : (s.setFlags base src).e' = s.e' := by unfold State.setFlags; split <;> rfl
@[simp] theorem State.setFlags_h' (s : State) (base src : Byte) : (s.setFlags base src).h' = s.h' := by unfold State.setFlags; split <;> rfl
@[simp] theorem State.setFlags_l' (s : State) (base src : Byte) : (s.setFlags base src).l' = s.l' := by unfold State.setFlags; split <;> rfl
@[simp] theorem State.setFlags_ixh (s : State) (base src : Byte) : (s.setFlags base src).ixh = s.ixh := by unfold State.setFlags; split <;> rfl
@[simp] theorem State.setFlags_ixl (s : State) (base src : Byte) : (s.setFlags base src).ixl = s.ixl := by unfold State.setFlags; split <;> rfl
@[simp] theorem State.setFlags_iyh (s : State) (base src : Byte) : (s.setFlags base src).iyh = s.iyh := by unfold State.setFlags; split <;> rfl
@[simp] theorem State.setFlags_iyl (s : State) (base src : Byte) : (s.setFlags base src).iyl = s.iyl := by unfold State.setFlags; split <;> rfl
@[simp] theorem State.setFlags_sp (s : State) (base src : Byte) : (s.setFlags base src).sp = s.sp := by unfold State.setFlags; split <;> rfl
@[simp] theorem State.setFlags_pc (s : State) (base src : Byte) : (s.setFlags base src).pc = s.pc := by unfold State.setFlags; split <;> rfl
@[simp] theorem State.setFlags_i (s : State) (base src : Byte) : (s.setFlags base src).i = s.i := by unfold State.setFlags; split <;> rfl
@[simp] theorem State.setFlags_r (s : State) (base src : Byte) : (s.setFlags base src).r = s.r := by unfold State.setFlags; split <;> rfl
@[simp] theorem State.setFlags_iff1 (s : State) (base src : Byte) : (s.setFlags base src).iff1 = s.iff1 := by unfold State.setFlags; split <;> rfl
@[simp] theorem State.setFlags_iff2 (s : State) (base src : Byte) : (s.setFlags base src).iff2 = s.iff2 := by unfold State.setFlags; split <;> rfl
@[simp] theorem State.setFlags_im (s : State) (base src : Byte) : (s.setFlags base src).im = s.im := by unfold State.setFlags; split <;> rfl
@[simp] theorem State.setFlags_eiInst (s : State) (base src : Byte) : (s.setFlags base src).eiInst = s.eiInst := by unfold State.setFlags; split <;> rfl
@[simp] theorem State.setFlags_halt (s : State) (base src : Byte) : (s.setFlags base src).halt = s.halt := by unfold State.setFlags; split <;> rfl
@[simp] theorem State.setFlags_tstates (s : State) (base src : Byte) : (s.setFlags base src).tstates = s.tstates := by unfold State.setFlags; split <;> rfl
@[simp] theorem State.setFlags_page (s : State) (base src : Byte) : (s.setFlags base src).page = s.page := by unfold State.setFlags; split <;> rfl
@[simp] theorem State.setFlags_mem (s : State) (base src : Byte) : (s.setFlags base src).mem = s.mem := by unfold State.setFlags; split <;> rfl
@[simp] theorem State.setFlags_written (s : State) (base src : Byte) : (s.setFlags base src).written = s.written := by unfold State.setFlags; split <;> rfl
@[simp] theorem State.setFlags_status (s : State) (base src : Byte) : (s.setFlags base src).status = s.status := by unfold State.setFlags; split <;> rfl
@[simp] theorem State.setFlags_params (s : State) (base src : Byte) : (s.setFlags base src).params = s.params := by unfold State.setFlags; split <;> rfl

/-! ## `setFlagsDrawn` -/

@[simp] theorem State.setFlagsDrawn_a (s : State) (base mask : Byte) : (s.setFlagsDrawn base mask).a = s.a := rfl
@[simp] theorem State.setFlagsDrawn_b (s : State) (base mask : Byte) : (s.setFlagsDrawn base mask).b = s.b := rfl
@[simp] theorem State.setFlagsDrawn_c (s : State) (base mask : Byte) : (s.setFlagsDrawn base mask).c = s.c := rfl
@[simp] theorem State.setFlagsDrawn_d (s : State) (base mask : Byte) : (s.setFlagsDrawn base mask).d = s.d := rfl
@[simp] theorem State.setFlagsDrawn_e (s : State) (base mask : Byte) : (s.setFlagsDrawn base mask).e = s.e := rfl
@[simp] theorem State.setFlagsDrawn_h (s : State) (base mask : Byte) : (s.setFlagsDrawn base mask).h = s.h := rfl
@[simp] theorem State.setFlagsDrawn_l (s : State) (base mask : Byte) : (s.setFlagsDrawn base mask).l = s.l := rfl
@[simp] theorem State.setFlagsDrawn_a' (s : State) (base mask : Byte) : (s.setFlagsDrawn base mask).a' = s.a' := rfl
@[simp] theorem State.setFlagsDrawn_f' (s : State) (base mask : Byte) : (s.setFlagsDrawn base mask).f' = s.f' := rfl
@[simp] theorem State.setFlagsDrawn_b' (s : State) (base mask : Byte) : (s.setFlagsDrawn base mask).b' = s.b' := rfl
@[simp] theorem State.setFlagsDrawn_c' (s : State) (base mask : Byte) : (s.setFlagsDrawn base mask).c' = s.c' := rfl
@[simp] theorem State.setFlagsDrawn_d' (s : State) (base mask : Byte) : (s.setFlagsDrawn base mask).d' = s.d' := rfl
@[simp] theorem State.setFlagsDrawn_e' (s : State) (base mask : Byte) : (s.setFlagsDrawn base mask).e' = s.e' := rfl
@[simp] theorem State.setFlagsDrawn_h' (s : State) (base mask : Byte) : (s.setFlagsDrawn base mask).h' = s.h' := rfl
@[simp] theorem State.setFlagsDrawn_l' (s : State) (base mask : Byte) : (s.setFlagsDrawn base mask).l' = s.l' := rfl
@[simp] theorem State.setFlagsDrawn_ixh (s : State) (base mask : Byte) : (s.setFlagsDrawn base mask).ixh = s.ixh := rfl
@[simp] theorem State.setFlagsDrawn_ixl (s : State) (base mask : Byte) : (s.setFlagsDrawn base mask).ixl = s.ixl := rfl
@[simp] theorem State.setFlagsDrawn_iyh (s : State) (base mask : Byte) : (s.setFlagsDrawn base mask).iyh = s.iyh := rfl
@[simp] theorem State.setFlagsDrawn_iyl (s : State) (base mask : Byte) : (s.setFlagsDrawn base mask).iyl = s.iyl := rfl
@[simp] theorem State.setFlagsDrawn_sp (s : State) (base mask : Byte) : (s.setFlagsDrawn base mask).sp = s.sp := rfl
@[simp] theorem State.setFlagsDrawn_pc (s : State) (base mask : Byte) : (s.setFlagsDrawn base mask).pc = s.pc := rfl
@[simp] theorem State.setFlagsDrawn_i (s : State) (base mask : Byte) : (s.setFlagsDrawn base mask).i = s.i := rfl
@[simp] theorem State.setFlagsDrawn_r (s : State) (base mask : Byte) : (s.setFlagsDrawn base mask).r = s.r := rfl
@[simp] theorem State.setFlagsDrawn_iff1 (s : State) (base mask : Byte) : (s.setFlagsDrawn base mask).iff1 = s.iff1 := rfl
@[simp] theorem State.setFlagsDrawn_iff2 (s : State) (base mask : Byte) : (s.setFlagsDrawn base mask).iff2 = s.iff2 := rfl
@[simp] theorem State.setFlagsDrawn_im (s : State) (base mask : Byte) : (s.setFlagsDrawn base mask).im = s.im := rfl
@[simp] theorem State.setFlagsDrawn_eiInst (s : State) (base mask : Byte) : (s.setFlagsDrawn base mask).eiInst = s.eiInst := rfl
@[simp] theorem State.setFlagsDrawn_halt (s : State) (base mask : Byte) : (s.setFlagsDrawn base mask).halt = s.halt := rfl
@[simp] theorem State.setFlagsDrawn_tstates (s : State) (base mask : Byte) : (s.setFlagsDrawn base mask).tstates = s.tstates := rfl
@[simp] theorem State.setFlagsDrawn_page (s : State) (base mask : Byte) : (s.setFlagsDrawn base mask).page = s.page := rfl
@[simp] theorem State.setFlagsDrawn_mem (s : State) (base mask : Byte) : (s.setFlagsDrawn base mask).mem = s.mem := rfl
@[simp] theorem State.setFlagsDrawn_written (s : State) (base mask : Byte) : (s.setFlagsDrawn base mask).written = s.written := rfl
@[simp] theorem State.setFlagsDrawn_status (s : State) (base mask : Byte) : (s.setFlagsDrawn base mask).status = s.status := rfl
@[simp] theorem State.setFlagsDrawn_params (s : State) (base mask : Byte) : (s.setFlagsDrawn base mask).params = s.params := rfl

/-! ## `setAccFlags` -/

@[simp] theorem State.setAccFlags_b (s : State) (q f src : Byte) : (s.setAccFlags q f src).b = s.b := by unfold State.setAccFlags State.setFlags; split <;> rfl
@[simp] theorem State.setAccFlags_c (s : State) (q f src : Byte) : (s.setAccFlags q f src).c = s.c := by unfold State.setAccFlags State.setFlags; split <;> rfl
@[simp] theorem State.setAccFlags_d (s : State) (q f src : Byte) : (s.setAccFlags q f src).d = s.d := by unfold State.setAccFlags State.setFlags; split <;> rfl
@[simp] theorem State.setAccFlags_e (s : State) (q f src : Byte) : (s.setAccFlags q f src).e = s.e := by unfold State.setAccFlags State.setFlags; split <;> rfl
@[simp] theorem State.setAccFlags_h (s : State) (q f src : Byte) : (s.setAccFlags q f src).h = s.h := by unfold State.setAccFlags State.setFlags; split <;> rfl
@[simp] theorem State.setAccFlags_l (s : State) (q f src : Byte) : (s.setAccFlags q f src).l = s.l := by unfold State.setAccFlags State.setFlags; split <;> rfl
@[simp] theorem State.setAccFlags_a' (s : State) (q f src : Byte) : (s.setAccFlags q f src).a' = s.a' := by unfold State.setAccFlags State.setFlags; split <;> rfl
@[simp] theorem State.setAccFlags_f' (s : State) (q f src : Byte) : (s.setAccFlags q f src).f' = s.f' := by unfold State.setAccFlags State.setFlags; split <;> rfl
@[simp] theorem State.setAccFlags_b' (s : State) (q f src : Byte) : (s.setAccFlags q f src).b' = s.b' := by unfold State.setAccFlags State.setFlags; split <;> rfl
@[simp] theorem State.setAccFlags_c' (s : State) (q f src : Byte) : (s.setAccFlags q f src).c' = s.c' := by unfold State.setAccFlags State.setFlags; split <;> rfl
@[simp] theorem State.setAccFlags_d' (s : State) (q f src : Byte) : (s.setAccFlags q f src).d' = s.d' := by unfold State.setAccFlags State.setFlags; split <;> rfl
@[simp] theorem State.setAccFlags_e' (s : State) (q f src : Byte) : (s.setAccFlags q f src).e' = s.e' := by unfold State.setAccFlags State.setFlags; split <;> rfl
@[simp] theorem State.setAccFlags_h' (s : State) (q f src : Byte) : (s.setAccFlags q f src).h' = s.h' := by unfold State.setAccFlags State.setFlags; split <;> rfl
@[simp] theorem State.setAccFlags_l' (s : State) (q f src : Byte) : (s.setAccFlags q f src).l' = s.l' := by unfold State.setAccFlags State.setFlags; split <;> rfl
@[simp] theorem State.setAccFlags_ixh (s : State) (q f src : Byte) : (s.setAccFlags q f src).ixh = s.ixh := by unfold State.setAccFlags State.setFlags; split <;> rfl
@[simp] theorem State.setAccFlags_ixl (s : State) (q f src : Byte) : (s.setAccFlags q f src).ixl = s.ixl := by unfold State.setAccFlags State.setFlags; split <;> rfl
@[simp] theorem State.setAccFlags_iyh (s : State) (q f src : Byte) : (s.setAccFlags q f src).iyh = s.iyh := by unfold State.setAccFlags State.setFlags; split <;> rfl
@[simp] theorem State.setAccFlags_iyl (s : State) (q f src : Byte) : (s.setAccFlags q f src).iyl = s.iyl := by unfold State.setAccFlags State.setFlags; split <;> rfl
@[simp] theorem State.setAccFlags_sp (s : State) (q f src : Byte) : (s.setAccFlags q f src).sp = s.sp := by unfold State.setAccFlags State.setFlags; split <;> rfl
@[simp] theorem State.setAccFlags_pc (s : State) (q f src : Byte) : (s.setAccFlags q f src).pc = s.pc := by unfold State.setAccFlags State.setFlags; split <;> rfl
@[simp] theorem State.setAccFlags_i (s : State) (q f src : Byte) : (s.setAccFlags q f src).i = s.i := by unfold State.setAccFlags State.setFlags; split <;> rfl
@[simp] theorem State.setAccFlags_r (s : State) (q f src : Byte) : (s.setAccFlags q f src).r = s.r := by unfold State.setAccFlags State.setFlags; split <;> rfl
@[simp] theorem State.setAccFlags_iff1 (s : State) (q f src : Byte) : (s.setAccFlags q f src).iff1 = s.iff1 := by unfold State.setAccFlags State.setFlags; split <;> rfl
@[simp] theorem State.setAccFlags_iff2 (s : State) (q f src : Byte) : (s.setAccFlags q f src).iff2 = s.iff2 := by unfold State.setAccFlags State.setFlags; split <;> rfl
@[simp] theorem State.setAccFlags_im (s : State) (q f src : Byte) : (s.setAccFlags q f src).im = s.im := by unfold State.setAccFlags State.setFlags; split <;> rfl
@[simp] theorem State.setAccFlags_eiInst (s : State) (q f src : Byte) : (s.setAccFlags q f src).eiInst = s.eiInst := by unfold State.setAccFlags State.setFlags; split <;> rfl
@[simp] theorem State.setAccFlags_halt (s : State) (q f src : Byte) : (s.setAccFlags q f src).halt = s.halt := by unfold State.setAccFlags State.setFlags; split <;> rfl
@[simp] theorem State.setAccFlags_tstates (s : State) (q f src : Byte) : (s.setAccFlags q f src).tstates = s.tstates := by unfold State.setAccFlags State.setFlags; split <;> rfl
@[simp] theorem State.setAccFlags_page (s : State) (q f src : Byte) : (s.setAccFlags q f src).page = s.page := by unfold State.setAccFlags State.setFlags; split <;> rfl
@[simp] theorem State.setAccFlags_mem (s : State) (q f src : Byte) : (s.setAccFlags q f src).mem = s.mem := by unfold State.setAccFlags State.setFlags; split <;> rfl
@[simp] theorem State.setAccFlags_written (s : State) (q f src : Byte) : (s.setAccFlags q f src).written = s.written := by unfold State.setAccFlags State.setFlags; split <;> rfl
@[simp] theorem State.setAccFlags_status (s : State) (q f src : Byte) : (s.setAccFlags q f src).status = s.status := by unfold State.setAccFlags State.setFlags; split <;> rfl
@[simp] theorem State.setAccFlags_params (s : State) (q f src : Byte) : (s.setAccFlags q f src).params = s.params := by unfold State.setAccFlags State.setFlags; split <;> rfl

/-! ## `launchByte` -/

@[simp] theorem State.launchByte_a (s : State) (a : Word) (v : Byte) : (s.launchByte a v).a = s.a := rfl
@[simp] theorem State.launchByte_f (s : State) (a : Word) (v : Byte) : (s.launchByte a v).f = s.f := rfl
@[simp] theorem State.launchByte_b (s : State) (a : Word) (v : Byte) : (s.launchByte a v).b = s.b := rfl
@[simp] theorem State.launchByte_c (s : State) (a : Word) (v : Byte) : (s.launchByte a v).c = s.c := rfl
@[simp] theorem State.launchByte_d (s : State) (a : Word) (v : Byte) : (s.launchByte a v).d = s.d := rfl
@[simp] theorem State.launchByte_e (s : State) (a : Word) (v : Byte) : (s.launchByte a v).e = s.e := rfl
@[simp] theorem State.launchByte_h (s : State) (a : Word) (v : Byte) : (s.launchByte a v).h = s.h := rfl
@[simp] theorem State.launchByte_l (s : State) (a : Word) (v : Byte) : (s.launchByte a v).l = s.l := rfl
@[simp] theorem State.launchByte_a' (s : State) (a : Word) (v : Byte) : (s.launchByte a v).a' = s.a' := rfl
@[simp] theorem State.launchByte_f' (s : State) (a : Word) (v : Byte) : (s.launchByte a v).f' = s.f' := rfl
@[simp] theorem State.launchByte_b' (s : State) (a : Word) (v : Byte) : (s.launchByte a v).b' = s.b' := rfl
@[simp] theorem State.launchByte_c' (s : State) (a : Word) (v : Byte) : (s.launchByte a v).c' = s.c' := rfl
@[simp] theorem State.launchByte_d' (s : State) (a : Word) (v : Byte) : (s.launchByte a v).d' = s.d' := rfl
@[simp] theorem State.launchByte_e' (s : State) (a : Word) (v : Byte) : (s.launchByte a v).e' = s.e' := rfl
@[simp] theorem State.launchByte_h' (s : State) (a : Word) (v : Byte) : (s.launchByte a v).h' = s.h' := rfl
@[simp] theorem State.launchByte_l' (s : State) (a : Word) (v : Byte) : (s.launchByte a v).l' = s.l' := rfl
@[simp] theorem State.launchByte_ixh (s : State) (a : Word) (v : Byte) : (s.launchByte a v).ixh = s.ixh := rfl
@[simp] theorem State.launchByte_ixl (s : State) (a : Word) (v : Byte) : (s.launchByte a v).ixl = s.ixl := rfl
@[simp] theorem State.launchByte_iyh (s : State) (a : Word) (v : Byte) : (s.launchByte a v).iyh = s.iyh := rfl
@[simp] theorem State.launchByte_iyl (s : State) (a : Word) (v : Byte) : (s.launchByte a v).iyl = s.iyl := rfl
@[simp] theorem State.launchByte_sp (s : State) (a : Word) (v : Byte) : (s.launchByte a v).sp = s.sp := rfl
@[simp] theorem State.launchByte_pc (s : State) (a : Word) (v : Byte) : (s.launchByte a v).pc = s.pc := rfl
@[simp] theorem State.launchByte_i (s : State) (a : Word) (v : Byte) : (s.launchByte a v).i = s.i := rfl
@[simp] theorem State.launchByte_r (s : State) (a : Word) (v : Byte) : (s.launchByte a v).r = s.r := rfl
@[simp] theorem State.launchByte_iff1 (s : State) (a : Word) (v : Byte) : (s.launchByte a v).iff1 = s.iff1 := rfl
@[simp] theorem State.launchByte_iff2 (s : State) (a : Word) (v : Byte) : (s.launchByte a v).iff2 = s.iff2 := rfl
@[simp] theorem State.launchByte_im (s : State) (a : Word) (v : Byte) : (s.launchByte a v).im = s.im := rfl
@[simp] theorem State.launchByte_eiInst (s : State) (a : Word) (v : Byte) : (s.launchByte a v).eiInst = s.eiInst := rfl
@[simp] theorem State.launchByte_halt (s : State) (a : Word) (v : Byte) : (s.launchByte a v).halt = s.halt := rfl
@[simp] theorem State.launchByte_tstates (s : State) (a : Word) (v : Byte) : (s.launchByte a v).tstates = s.tstates := rfl
@[simp] theorem State.launchByte_page (s : State) (a : Word) (v : Byte) : (s.launchByte a v).page = s.page := rfl
@[simp] theorem State.launchByte_status (s : State) (a : Word) (v : Byte) : (s.launchByte a v).status = s.status := rfl
@[simp] theorem State.launchByte_params (s : State) (a : Word) (v : Byte) : (s.launchByte a v).params = s.params := rfl
@[simp] theorem State.launchByte_draws (s : State) (a : Word) (v : Byte) : (s.launchByte a v).draws = s.draws := rfl

/-! ## The fields written -/

@[simp] theorem State.setBc_b (s : State) (v : Word) : (s.setBc v).b = hi v := rfl
@[simp] theorem State.setBc_c (s : State) (v : Word) : (s.setBc v).c = lo v := rfl
@[simp] theorem State.setDe_d (s : State) (v : Word) : (s.setDe v).d = hi v := rfl
@[simp] theorem State.setDe_e (s : State) (v : Word) : (s.setDe v).e = lo v := rfl
@[simp] theorem State.setHl_h (s : State) (v : Word) : (s.setHl v).h = hi v := rfl
@[simp] theorem State.setHl_l (s : State) (v : Word) : (s.setHl v).l = lo v := rfl
@[simp] theorem State.setAf_a (s : State) (v : Word) : (s.setAf v).a = hi v := rfl
@[simp] theorem State.setAf_f (s : State) (v : Word) : (s.setAf v).f = lo v := rfl
@[simp] theorem State.afterDraw_draws (s : State) : s.afterDraw.draws = s.draws + 1 := rfl
@[simp] theorem State.setFlagsDrawn_f (s : State) (base mask : Byte) :
    (s.setFlagsDrawn base mask).f = base ||| (Config.freeByte s.draws &&& mask) := rfl
@[simp] theorem State.setFlagsDrawn_draws (s : State) (base mask : Byte) :
    (s.setFlagsDrawn base mask).draws = s.draws + 1 := rfl
@[simp] theorem State.setFlags_f (s : State) (base src : Byte) : (s.setFlags base src).f = base ||| s.xyBits src := by
  unfold State.setFlags; split <;> rfl
@[simp] theorem State.setAccFlags_a (s : State) (q f src : Byte) : (s.setAccFlags q f src).a = q := by
  unfold State.setAccFlags State.setFlags; split <;> rfl
@[simp] theorem State.setAccFlags_f (s : State) (q f src : Byte) :
    (s.setAccFlags q f src).f = f ||| s.xyBits src := by
  unfold State.setAccFlags; rw [State.setFlags_f]; rfl

/-- A register read after a write of a register. -/
theorem State.reg8_setReg8 (s : State) (r q : Reg8) (v : Byte) :
    (s.setReg8 r v).reg8 q = if q = r then v else s.reg8 q := by
  cases r <;> cases q <;> rfl

/-- An index half read after a write of an index half. -/
theorem State.half_setHalf (s : State) (x y : IndexReg) (u w : IndexHalf) (v : Byte) :
    (s.setHalf x u v).half y w = if y = x ∧ w = u then v else s.half y w := by
  cases x <;> cases y <;> cases u <;> cases w <;> rfl

end Sys2Proof.Machine
end

