-- ==== Sys2Proof/Laws/Ops.lean ====
section
/-! SUPPORT. One lemma for each shared operation that says when it answers a next state and which: the rest `k` of the instruction
answers it, after the accesses have been admitted. Beside it, where the operation is `stuck` or faults. -/

namespace Sys2Proof.Machine

@[simp] theorem canRead_writeByte (s : State) (a b : Word) (v : Byte) : (s.writeByte a v).canRead b = s.canRead b := rfl
@[simp] theorem canWrite_writeByte (s : State) (a b : Word) (v : Byte) : (s.writeByte a v).canWrite b = s.canWrite b := rfl

@[simp] theorem fallThrough_next (s t : State) (len : Nat) :
    fallThrough s len = .next t ↔ t = { s with pc := s.pc + BitVec.ofNat 16 len } := by
  simp [fallThrough, State.nextAddress, eq_comm]

@[simp] theorem jump_next (s t : State) (w : Word) : jump s w = .next t ↔ t = { s with pc := w } := by
  simp [jump, eq_comm]

theorem loadByte_next (s t : State) (a : Word) (k : Byte → Outcome State) :
    loadByte s a k = .next t ↔ s.canRead a = true ∧ k (s.readByte a) = .next t := by
  unfold loadByte; split <;> simp_all

theorem loadByte_stuck (s : State) (a : Word) (k : Byte → Outcome State) (h : s.canRead a = false) :
    loadByte s a k = .fault .stuck := by
  simp [loadByte, h]

theorem storeByte_next (s t : State) (a : Word) (v : Byte) (k : State → Outcome State) :
    storeByte s a v k = .next t ↔ s.canWrite a = true ∧ k (s.writeByte a v) = .next t := by
  unfold storeByte; split <;> simp_all

theorem storeByte_stuck (s : State) (a : Word) (v : Byte) (k : State → Outcome State) (h : s.canWrite a = false) :
    storeByte s a v k = .fault .stuck := by
  simp [storeByte, h]

theorem loadWord_next (s t : State) (a : Word) (k : Word → Outcome State) :
    loadWord s a k = .next t ↔
      s.canRead a = true ∧ s.canRead (a + 1) = true ∧ k (join (s.readByte (a + 1)) (s.readByte a)) = .next t := by
  simp [loadWord, loadByte_next]

theorem loadWord_stuck (s : State) (a : Word) (k : Word → Outcome State)
    (h : (s.canRead a && s.canRead (a + 1)) = false) : loadWord s a k = .fault .stuck := by
  unfold loadWord loadByte; split <;> simp_all

theorem storeWord_next (s t : State) (a : Word) (v : Word) (k : State → Outcome State) :
    storeWord s a v k = .next t ↔
      s.canWrite a = true ∧ s.canWrite (a + 1) = true ∧ k ((s.writeByte a (lo v)).writeByte (a + 1) (hi v)) = .next t := by
  simp [storeWord, storeByte_next]

theorem storeWord_stuck (s : State) (a : Word) (v : Word) (k : State → Outcome State)
    (h : (s.canWrite a && s.canWrite (a + 1)) = false) : storeWord s a v k = .fault .stuck := by
  unfold storeWord storeByte; split <;> simp_all

theorem modifyByte_next (s t : State) (a : Word) (g : State → Byte → Byte × State) (k : Byte → State → Outcome State) :
    modifyByte s a g k = .next t ↔
      s.canRead a = true ∧ (g s (s.readByte a)).2.canWrite a = true
        ∧ k (g s (s.readByte a)).1 ((g s (s.readByte a)).2.writeByte a (g s (s.readByte a)).1) = .next t := by
  simp [modifyByte, loadByte_next, storeByte_next]

theorem modifyByte_stuck (s : State) (a : Word) (g : State → Byte → Byte × State) (k : Byte → State → Outcome State)
    (hg : (g s (s.readByte a)).2.params = s.params) (h : (s.canRead a && s.canWrite a) = false) :
    modifyByte s a g k = .fault .stuck := by
  have hw : (g s (s.readByte a)).2.canWrite a = s.canWrite a := by simp only [State.canWrite, hg]
  simp only [modifyByte, loadByte, storeByte, hw]
  split <;> simp_all

theorem withRebase_next (s t : State) (x : Word) (k : Word → Outcome State) :
    withRebase s x k = .next t ↔ s.page < 4 ∧ k (rebase s.page x) = .next t := by
  unfold withRebase; split <;> simp_all

theorem withRebase_fault (s : State) (x : Word) (k : Word → Outcome State) (h : ¬ s.page < 4) :
    withRebase s x k = .fault (.pageOutOfRange s.page) := by
  simp [withRebase, h]

theorem push16_next (s t : State) (v : Word) (k : State → Outcome State) :
    push16 s v k = .next t ↔
      s.canWrite (s.sp - 1) = true ∧ s.canWrite (s.sp - 1 - 1) = true
        ∧ k { (s.writeByte (s.sp - 1) (hi v)).writeByte (s.sp - 1 - 1) (lo v) with sp := s.sp - 1 - 1 } = .next t := by
  simp only [push16, storeByte_next]
  exact Iff.rfl

theorem pop16_next (s t : State) (k : Word → State → Outcome State) :
    pop16 s k = .next t ↔
      s.canRead s.sp = true ∧ s.canRead (s.sp + 1) = true
        ∧ k (join (s.readByte (s.sp + 1)) (s.readByte s.sp)) { s with sp := s.sp + 2 } = .next t := by
  simp [pop16, loadWord_next]

theorem callTo_next (s t : State) (len : Nat) (target : Word) :
    callTo s len target = .next t ↔
      s.page < 4 ∧ s.canWrite (s.sp - 1) = true ∧ s.canWrite (s.sp - 1 - 1) = true
        ∧ t = { (s.writeByte (s.sp - 1) (hi (rebase s.page (s.pc + BitVec.ofNat 16 len)))).writeByte (s.sp - 1 - 1)
            (lo (rebase s.page (s.pc + BitVec.ofNat 16 len))) with sp := s.sp - 1 - 1, pc := target } := by
  simp [callTo, withRebase_next, push16_next, State.nextAddress]

theorem exchangeTop_next (s t : State) (v : Word) (k : Word → State → Outcome State) :
    exchangeTop s v k = .next t ↔
      s.canRead s.sp = true ∧ s.canRead (s.sp + 1) = true ∧ s.canWrite s.sp = true ∧ s.canWrite (s.sp + 1) = true
        ∧ k (join (s.readByte (s.sp + 1)) (s.readByte s.sp)) ((s.writeByte s.sp (lo v)).writeByte (s.sp + 1) (hi v)) = .next t := by
  simp [exchangeTop, loadWord_next, storeWord_next]

/-- The re-combination in `0..3` lies in the page (48_control_stack.md R400). -/
theorem rebase_toNat (page : Nat) (x : Word) (h : page < 4) :
    (rebase page x).toNat = x.toNat % 0x4000 + page * 0x4000 := by
  simp only [rebase, Config.pageSize, BitVec.toNat_ofNat]
  omega

end Sys2Proof.Machine
end

