-- ==== Sys2Proof/Laws/Stored.lean ====
section
/-! SUPPORT. What `writeByte` leaves in memory and in `written`, in the terms of `StoredByte` and `StoredWord`. -/

namespace Sys2Proof.Machine

theorem storedByte_writeByte (s : State) (a : Word) (v : Byte) : StoredByte s (s.writeByte a v) a v :=
  ⟨by simp, fun _ h => s.readByte_writeByte_other v h, fun n => s.mem_written_writeByte a v n⟩

/-- The two writes of `storeWord` (20_memory.md R72). -/
theorem storedWord_store (s : State) (a : Word) (v : Word) :
    StoredWord s ((s.writeByte a (lo v)).writeByte (a + 1) (hi v)) a v := by
  have ha : a ≠ a + 1 := by intro h; bv_omega
  refine ⟨?_, by simp, fun k h1 h2 => ?_, fun n => ?_⟩
  · rw [State.readByte_writeByte_other _ _ ha]; simp
  · rw [State.readByte_writeByte_other _ _ h2, State.readByte_writeByte_other _ _ h1]
  · simp only [State.mem_written_writeByte]; tauto

/-- The two writes of `push16` (48_control_stack.md R405). -/
theorem storedWord_push (s : State) (sp : Word) (v : Word) :
    StoredWord s ((s.writeByte (sp - 1) (hi v)).writeByte (sp - 1 - 1) (lo v)) (sp - 2) v := by
  have e1 : sp - 2 + 1 = sp - 1 := by bv_omega
  have e2 : sp - 2 = sp - 1 - 1 := by bv_omega
  refine ⟨by rw [e2]; simp, ?_, fun k h1 h2 => ?_, fun n => ?_⟩
  · rw [e1, State.readByte_writeByte_other _ _ (by bv_omega)]; simp
  · rw [State.readByte_writeByte_other _ _ (by rw [← e2]; exact h1),
      State.readByte_writeByte_other _ _ (by rw [← e1]; exact h2)]
  · rw [e1, e2]; simp only [State.mem_written_writeByte]

end Sys2Proof.Machine
end

