-- ==== Sys2Proof/Laws/Table.lean ====
section
/-! SUPPORT. What the opcode table holds: every call of a row succeeds, the assembly collects them, and every well-formed instruction
finds its template. -/

namespace Sys2Proof.Machine

/-! ## The assembly -/

/-- The assembly of calls that all succeed is their list. -/
theorem assemble_ok (keys : List Instr) (call : Instr → Synth) (f : Instr → Template) (h : ∀ i, call i = .ok (f i)) :
    assemble (keys.map fun i => (i, call i)) = .ok (keys.map fun i => (i, f i)) := by
  induction keys with
  | nil => rfl
  | cons i rest ih => simp only [List.map_cons, h, assemble] at ih ⊢; rw [ih]

/-- A key finds the entry made of it. -/
theorem lookup_entries (keys : List Instr) (f : Instr → Template) (k : Instr) (h : k ∈ keys) :
    (keys.map fun i => (i, f i)).lookup k = some (f k) := by
  induction keys with
  | nil => simp at h
  | cons i rest ih =>
    simp only [List.map_cons, List.lookup_cons]
    by_cases hk : k = i
    · simp [hk]
    · have hne : (k == i) = false := by simpa using hk
      simp only [hne]
      exact ih ((List.mem_cons.mp h).resolve_left hk)

/-! ## The keys -/

theorem mem_allBytes (b : Byte) : b ∈ allBytes :=
  List.mem_map.mpr ⟨b.toNat, List.mem_range.mpr b.isLt, by simp⟩

/-- The three bytes are a sequence of prefix and opcode bytes. -/
def isOpcodeSequence (b0 b1 b3 : Byte) : Bool :=
  (!isPrefixByte b0 && b1 == 0 && b3 == 0) || ((b0 == 0xCB || b0 == 0xED) && b3 == 0)
    || ((b0 == 0xDD || b0 == 0xFD) && ((b1 != 0xCB && b3 == 0) || b1 == 0xCB))

theorem mem_opcodeBytes {b0 b1 b3 : Byte} (h : isOpcodeSequence b0 b1 b3 = true) : (b0, b1, b3) ∈ opcodeBytes := by
  simp only [isOpcodeSequence, Bool.or_eq_true, Bool.and_eq_true, beq_iff_eq, bne_iff_ne, ne_eq] at h
  simp only [opcodeBytes, List.mem_append, List.mem_map, List.mem_filter, Prod.mk.injEq, bne_iff_ne, ne_eq]
  rcases h with (⟨⟨h0, rfl⟩, rfl⟩ | ⟨rfl | rfl, rfl⟩) | ⟨rfl | rfl, ⟨h1, rfl⟩ | rfl⟩ <;> simp_all [mem_allBytes]

/-- The key is read back from its own opcode bytes. -/
def HasEntry (k : Instr) : Prop :=
  isOpcodeSequence (byteAt (encode k) 0) (byteAt (encode k) 1) (byteAt (encode k) 3) = true
    ∧ decode (byteAt (encode k) 0) (byteAt (encode k) 1) 0 (byteAt (encode k) 3) = .ok k

theorem mem_opcodeKeys {k : Instr} (h : HasEntry k) : k ∈ opcodeKeys :=
  List.mem_filterMap.mpr ⟨_, mem_opcodeBytes h.1, by simp only [h.2]⟩

/-- Every well-formed instruction has its key in the table. -/
theorem hasEntry_key : (i : Instr) → i.wellFormed = true → HasEntry (Instr.key i)
  | .nop, _ => ⟨rfl, rfl⟩
  | .ldRR dst src, _ => by cases dst <;> cases src <;> exact ⟨rfl, rfl⟩
  | .ldRN dst _, _ => by show HasEntry (.ldRN _ 0); cases dst <;> exact ⟨rfl, rfl⟩
  | .ldRHl dst, _ => by cases dst <;> exact ⟨rfl, rfl⟩
  | .ldHlR r, _ => by cases r <;> exact ⟨rfl, rfl⟩
  | .ldHlN _, _ => (⟨rfl, rfl⟩ : HasEntry (.ldHlN 0))
  | .ldAPtr q, _ => by cases q <;> exact ⟨rfl, rfl⟩
  | .ldAAbs _, _ => (⟨rfl, rfl⟩ : HasEntry (.ldAAbs 0))
  | .ldPtrA q, _ => by cases q <;> exact ⟨rfl, rfl⟩
  | .ldAbsA _, _ => (⟨rfl, rfl⟩ : HasEntry (.ldAbsA 0))
  | .ldDdNn p _, _ => by show HasEntry (.ldDdNn _ 0); cases p <;> exact ⟨rfl, rfl⟩
  | .ldHlAbs _, _ => (⟨rfl, rfl⟩ : HasEntry (.ldHlAbs 0))
  | .ldAbsHl _, _ => (⟨rfl, rfl⟩ : HasEntry (.ldAbsHl 0))
  | .ldSpHl, _ => ⟨rfl, rfl⟩
  | .pushQq p, _ => by cases p <;> exact ⟨rfl, rfl⟩
  | .popQq p, _ => by cases p <;> exact ⟨rfl, rfl⟩
  | .exDeHl, _ => ⟨rfl, rfl⟩
  | .exAfAf, _ => ⟨rfl, rfl⟩
  | .exx, _ => ⟨rfl, rfl⟩
  | .exSpHl, _ => ⟨rfl, rfl⟩
  | .addR r, _ => by cases r <;> exact ⟨rfl, rfl⟩
  | .addN _, _ => (⟨rfl, rfl⟩ : HasEntry (.addN 0))
  | .addHl, _ => ⟨rfl, rfl⟩
  | .adcR r, _ => by cases r <;> exact ⟨rfl, rfl⟩
  | .adcN _, _ => (⟨rfl, rfl⟩ : HasEntry (.adcN 0))
  | .adcHl, _ => ⟨rfl, rfl⟩
  | .subR r, _ => by cases r <;> exact ⟨rfl, rfl⟩
  | .subN _, _ => (⟨rfl, rfl⟩ : HasEntry (.subN 0))
  | .subHl, _ => ⟨rfl, rfl⟩
  | .sbcR r, _ => by cases r <;> exact ⟨rfl, rfl⟩
  | .sbcN _, _ => (⟨rfl, rfl⟩ : HasEntry (.sbcN 0))
  | .sbcHl, _ => ⟨rfl, rfl⟩
  | .andR r, _ => by cases r <;> exact ⟨rfl, rfl⟩
  | .andN _, _ => (⟨rfl, rfl⟩ : HasEntry (.andN 0))
  | .andHl, _ => ⟨rfl, rfl⟩
  | .xorR r, _ => by cases r <;> exact ⟨rfl, rfl⟩
  | .xorN _, _ => (⟨rfl, rfl⟩ : HasEntry (.xorN 0))
  | .xorHl, _ => ⟨rfl, rfl⟩
  | .orR r, _ => by cases r <;> exact ⟨rfl, rfl⟩
  | .orN _, _ => (⟨rfl, rfl⟩ : HasEntry (.orN 0))
  | .orHl, _ => ⟨rfl, rfl⟩
  | .cpR r, _ => by cases r <;> exact ⟨rfl, rfl⟩
  | .cpN _, _ => (⟨rfl, rfl⟩ : HasEntry (.cpN 0))
  | .cpHl, _ => ⟨rfl, rfl⟩
  | .incR r, _ => by cases r <;> exact ⟨rfl, rfl⟩
  | .incHl, _ => ⟨rfl, rfl⟩
  | .decR r, _ => by cases r <;> exact ⟨rfl, rfl⟩
  | .decHl, _ => ⟨rfl, rfl⟩
  | .addHlSs p, _ => by cases p <;> exact ⟨rfl, rfl⟩
  | .incSs p, _ => by cases p <;> exact ⟨rfl, rfl⟩
  | .decSs p, _ => by cases p <;> exact ⟨rfl, rfl⟩
  | .rlca, _ => ⟨rfl, rfl⟩
  | .rrca, _ => ⟨rfl, rfl⟩
  | .rla, _ => ⟨rfl, rfl⟩
  | .rra, _ => ⟨rfl, rfl⟩
  | .daa, _ => ⟨rfl, rfl⟩
  | .cpl, _ => ⟨rfl, rfl⟩
  | .scf, _ => ⟨rfl, rfl⟩
  | .ccf, _ => ⟨rfl, rfl⟩
  | .halt, _ => ⟨rfl, rfl⟩
  | .jpNn _, _ => (⟨rfl, rfl⟩ : HasEntry (.jpNn 0))
  | .jpCc cc _, _ => by show HasEntry (.jpCc _ 0); cases cc <;> exact ⟨rfl, rfl⟩
  | .jpHl, _ => ⟨rfl, rfl⟩
  | .jrE _, _ => (⟨rfl, rfl⟩ : HasEntry (.jrE 0))
  | .jrCc cc _, _ => by show HasEntry (.jrCc _ 0); cases cc <;> exact ⟨rfl, rfl⟩
  | .djnz _, _ => (⟨rfl, rfl⟩ : HasEntry (.djnz 0))
  | .callNn _, _ => (⟨rfl, rfl⟩ : HasEntry (.callNn 0))
  | .callCc cc _, _ => by show HasEntry (.callCc _ 0); cases cc <;> exact ⟨rfl, rfl⟩
  | .ret, _ => ⟨rfl, rfl⟩
  | .retCc cc, _ => by cases cc <;> exact ⟨rfl, rfl⟩
  | .rst t, _ => (by unfold HasEntry; decide : ∀ t : Fin 8, HasEntry (.rst t)) t
  | .rlcR r, _ => by cases r <;> exact ⟨rfl, rfl⟩
  | .rlcHl, _ => ⟨rfl, rfl⟩
  | .rrcR r, _ => by cases r <;> exact ⟨rfl, rfl⟩
  | .rrcHl, _ => ⟨rfl, rfl⟩
  | .rlR r, _ => by cases r <;> exact ⟨rfl, rfl⟩
  | .rlHl, _ => ⟨rfl, rfl⟩
  | .rrR r, _ => by cases r <;> exact ⟨rfl, rfl⟩
  | .rrHl, _ => ⟨rfl, rfl⟩
  | .slaR r, _ => by cases r <;> exact ⟨rfl, rfl⟩
  | .slaHl, _ => ⟨rfl, rfl⟩
  | .sraR r, _ => by cases r <;> exact ⟨rfl, rfl⟩
  | .sraHl, _ => ⟨rfl, rfl⟩
  | .sllR r, _ => by cases r <;> exact ⟨rfl, rfl⟩
  | .sllHl, _ => ⟨rfl, rfl⟩
  | .srlR r, _ => by cases r <;> exact ⟨rfl, rfl⟩
  | .srlHl, _ => ⟨rfl, rfl⟩
  | .bitR b r, _ => by
    cases r <;> revert b <;> unfold HasEntry <;> dsimp only [Instr.key] <;> decide
  | .bitHl b, _ => (by unfold HasEntry; decide : ∀ b : Fin 8, HasEntry (.bitHl b)) b
  | .resR b r, _ => by
    cases r <;> revert b <;> unfold HasEntry <;> dsimp only [Instr.key] <;> decide
  | .resHl b, _ => (by unfold HasEntry; decide : ∀ b : Fin 8, HasEntry (.resHl b)) b
  | .setR b r, _ => by
    cases r <;> revert b <;> unfold HasEntry <;> dsimp only [Instr.key] <;> decide
  | .setHl b, _ => (by unfold HasEntry; decide : ∀ b : Fin 8, HasEntry (.setHl b)) b
  | .ldDdAbs p _, _ => by show HasEntry (.ldDdAbs _ 0); cases p <;> exact ⟨rfl, rfl⟩
  | .ldAbsDd p _, _ => by show HasEntry (.ldAbsDd _ 0); cases p <;> exact ⟨rfl, rfl⟩
  | .adcHlSs p, _ => by cases p <;> exact ⟨rfl, rfl⟩
  | .sbcHlSs p, _ => by cases p <;> exact ⟨rfl, rfl⟩
  | .neg, _ => ⟨rfl, rfl⟩
  | .ldIA, _ => ⟨rfl, rfl⟩
  | .ldRefreshA, _ => ⟨rfl, rfl⟩
  | .ldAI, _ => ⟨rfl, rfl⟩
  | .ldARefresh, _ => ⟨rfl, rfl⟩
  | .ldXyNn x _, _ => by show HasEntry (.ldXyNn _ 0); cases x <;> exact ⟨rfl, rfl⟩
  | .ldXyAbs x _, _ => by show HasEntry (.ldXyAbs _ 0); cases x <;> exact ⟨rfl, rfl⟩
  | .ldAbsXy x _, _ => by show HasEntry (.ldAbsXy _ 0); cases x <;> exact ⟨rfl, rfl⟩
  | .ldSpXy x, _ => by cases x <;> exact ⟨rfl, rfl⟩
  | .pushXy x, _ => by cases x <;> exact ⟨rfl, rfl⟩
  | .popXy x, _ => by cases x <;> exact ⟨rfl, rfl⟩
  | .exSpXy x, _ => by cases x <;> exact ⟨rfl, rfl⟩
  | .incXy x, _ => by cases x <;> exact ⟨rfl, rfl⟩
  | .decXy x, _ => by cases x <;> exact ⟨rfl, rfl⟩
  | .addXyPp x p, _ => by cases x <;> cases p <;> exact ⟨rfl, rfl⟩
  | .jpXy x, _ => by cases x <;> exact ⟨rfl, rfl⟩
  | .ldRXd r x _, _ => by show HasEntry (.ldRXd _ _ 0); cases r <;> cases x <;> exact ⟨rfl, rfl⟩
  | .ldXdR x _ r, _ => by show HasEntry (.ldXdR _ 0 _); cases x <;> cases r <;> exact ⟨rfl, rfl⟩
  | .ldXdN x _ _, _ => by show HasEntry (.ldXdN _ 0 0); cases x <;> exact ⟨rfl, rfl⟩
  | .addXd x _, _ => by show HasEntry (.addXd _ 0); cases x <;> exact ⟨rfl, rfl⟩
  | .addXh x u, _ => by cases x <;> cases u <;> exact ⟨rfl, rfl⟩
  | .adcXd x _, _ => by show HasEntry (.adcXd _ 0); cases x <;> exact ⟨rfl, rfl⟩
  | .adcXh x u, _ => by cases x <;> cases u <;> exact ⟨rfl, rfl⟩
  | .subXd x _, _ => by show HasEntry (.subXd _ 0); cases x <;> exact ⟨rfl, rfl⟩
  | .subXh x u, _ => by cases x <;> cases u <;> exact ⟨rfl, rfl⟩
  | .sbcXd x _, _ => by show HasEntry (.sbcXd _ 0); cases x <;> exact ⟨rfl, rfl⟩
  | .sbcXh x u, _ => by cases x <;> cases u <;> exact ⟨rfl, rfl⟩
  | .andXd x _, _ => by show HasEntry (.andXd _ 0); cases x <;> exact ⟨rfl, rfl⟩
  | .andXh x u, _ => by cases x <;> cases u <;> exact ⟨rfl, rfl⟩
  | .xorXd x _, _ => by show HasEntry (.xorXd _ 0); cases x <;> exact ⟨rfl, rfl⟩
  | .xorXh x u, _ => by cases x <;> cases u <;> exact ⟨rfl, rfl⟩
  | .orXd x _, _ => by show HasEntry (.orXd _ 0); cases x <;> exact ⟨rfl, rfl⟩
  | .orXh x u, _ => by cases x <;> cases u <;> exact ⟨rfl, rfl⟩
  | .cpXd x _, _ => by show HasEntry (.cpXd _ 0); cases x <;> exact ⟨rfl, rfl⟩
  | .cpXh x u, _ => by cases x <;> cases u <;> exact ⟨rfl, rfl⟩
  | .incXd x _, _ => by show HasEntry (.incXd _ 0); cases x <;> exact ⟨rfl, rfl⟩
  | .decXd x _, _ => by show HasEntry (.decXd _ 0); cases x <;> exact ⟨rfl, rfl⟩
  | .ldRho x t s, h => by cases x <;> cases t <;> cases s <;> first | exact ⟨rfl, rfl⟩ | exact absurd h Bool.noConfusion
  | .ldXhN x u _, _ => by show HasEntry (.ldXhN _ _ 0); cases x <;> cases u <;> exact ⟨rfl, rfl⟩
  | .incXh x u, _ => by cases x <;> cases u <;> exact ⟨rfl, rfl⟩
  | .decXh x u, _ => by cases x <;> cases u <;> exact ⟨rfl, rfl⟩
  | .rlcXd x _, _ => by show HasEntry (.rlcXd _ 0); cases x <;> exact ⟨rfl, rfl⟩
  | .rlcXdR x _ r, _ => by show HasEntry (.rlcXdR _ 0 _); cases x <;> cases r <;> exact ⟨rfl, rfl⟩
  | .rrcXd x _, _ => by show HasEntry (.rrcXd _ 0); cases x <;> exact ⟨rfl, rfl⟩
  | .rrcXdR x _ r, _ => by show HasEntry (.rrcXdR _ 0 _); cases x <;> cases r <;> exact ⟨rfl, rfl⟩
  | .rlXd x _, _ => by show HasEntry (.rlXd _ 0); cases x <;> exact ⟨rfl, rfl⟩
  | .rlXdR x _ r, _ => by show HasEntry (.rlXdR _ 0 _); cases x <;> cases r <;> exact ⟨rfl, rfl⟩
  | .rrXd x _, _ => by show HasEntry (.rrXd _ 0); cases x <;> exact ⟨rfl, rfl⟩
  | .rrXdR x _ r, _ => by show HasEntry (.rrXdR _ 0 _); cases x <;> cases r <;> exact ⟨rfl, rfl⟩
  | .slaXd x _, _ => by show HasEntry (.slaXd _ 0); cases x <;> exact ⟨rfl, rfl⟩
  | .slaXdR x _ r, _ => by show HasEntry (.slaXdR _ 0 _); cases x <;> cases r <;> exact ⟨rfl, rfl⟩
  | .sraXd x _, _ => by show HasEntry (.sraXd _ 0); cases x <;> exact ⟨rfl, rfl⟩
  | .sraXdR x _ r, _ => by show HasEntry (.sraXdR _ 0 _); cases x <;> cases r <;> exact ⟨rfl, rfl⟩
  | .sllXd x _, _ => by show HasEntry (.sllXd _ 0); cases x <;> exact ⟨rfl, rfl⟩
  | .sllXdR x _ r, _ => by show HasEntry (.sllXdR _ 0 _); cases x <;> cases r <;> exact ⟨rfl, rfl⟩
  | .srlXd x _, _ => by show HasEntry (.srlXd _ 0); cases x <;> exact ⟨rfl, rfl⟩
  | .srlXdR x _ r, _ => by show HasEntry (.srlXdR _ 0 _); cases x <;> cases r <;> exact ⟨rfl, rfl⟩
  | .bitXd b .ix _, _ => (by unfold HasEntry; decide : ∀ b : Fin 8, HasEntry (.bitXd b .ix 0)) b
  | .bitXd b .iy _, _ => (by unfold HasEntry; decide : ∀ b : Fin 8, HasEntry (.bitXd b .iy 0)) b
  | .resXd b .ix _, _ => (by unfold HasEntry; decide : ∀ b : Fin 8, HasEntry (.resXd b .ix 0)) b
  | .resXd b .iy _, _ => (by unfold HasEntry; decide : ∀ b : Fin 8, HasEntry (.resXd b .iy 0)) b
  | .setXd b .ix _, _ => (by unfold HasEntry; decide : ∀ b : Fin 8, HasEntry (.setXd b .ix 0)) b
  | .setXd b .iy _, _ => (by unfold HasEntry; decide : ∀ b : Fin 8, HasEntry (.setXd b .iy 0)) b

/-! ## The calls -/

/-- The call of every row succeeds (60_exceptions.md R454). -/
theorem synth_ok (cfg : Params) : (i : Instr) → ∃ t, synth cfg i = .ok t
  | .nop => ⟨_, rfl⟩
  | .ldRR dst src => by cases dst <;> cases src <;> exact ⟨_, rfl⟩
  | .ldRN dst _ => by cases dst <;> exact ⟨_, rfl⟩
  | .ldRHl dst => by cases dst <;> exact ⟨_, rfl⟩
  | .ldHlR r => by cases r <;> exact ⟨_, rfl⟩
  | .ldHlN _ => ⟨_, rfl⟩
  | .ldAPtr q => by cases q <;> exact ⟨_, rfl⟩
  | .ldAAbs _ => ⟨_, rfl⟩
  | .ldPtrA q => by cases q <;> exact ⟨_, rfl⟩
  | .ldAbsA _ => ⟨_, rfl⟩
  | .ldDdNn p _ => by cases p <;> exact ⟨_, rfl⟩
  | .ldHlAbs _ => ⟨_, rfl⟩
  | .ldAbsHl _ => ⟨_, rfl⟩
  | .ldSpHl => ⟨_, rfl⟩
  | .pushQq p => by cases p <;> exact ⟨_, rfl⟩
  | .popQq p => by cases p <;> exact ⟨_, rfl⟩
  | .exDeHl => ⟨_, rfl⟩
  | .exAfAf => ⟨_, rfl⟩
  | .exx => ⟨_, rfl⟩
  | .exSpHl => ⟨_, rfl⟩
  | .addR r => by cases r <;> exact ⟨_, rfl⟩
  | .addN _ => ⟨_, rfl⟩
  | .addHl => ⟨_, rfl⟩
  | .adcR r => by cases r <;> exact ⟨_, rfl⟩
  | .adcN _ => ⟨_, rfl⟩
  | .adcHl => ⟨_, rfl⟩
  | .subR r => by cases r <;> exact ⟨_, rfl⟩
  | .subN _ => ⟨_, rfl⟩
  | .subHl => ⟨_, rfl⟩
  | .sbcR r => by cases r <;> exact ⟨_, rfl⟩
  | .sbcN _ => ⟨_, rfl⟩
  | .sbcHl => ⟨_, rfl⟩
  | .andR r => by cases r <;> exact ⟨_, rfl⟩
  | .andN _ => ⟨_, rfl⟩
  | .andHl => ⟨_, rfl⟩
  | .xorR r => by cases r <;> exact ⟨_, rfl⟩
  | .xorN _ => ⟨_, rfl⟩
  | .xorHl => ⟨_, rfl⟩
  | .orR r => by cases r <;> exact ⟨_, rfl⟩
  | .orN _ => ⟨_, rfl⟩
  | .orHl => ⟨_, rfl⟩
  | .cpR r => by cases r <;> exact ⟨_, rfl⟩
  | .cpN _ => ⟨_, rfl⟩
  | .cpHl => ⟨_, rfl⟩
  | .incR r => by cases r <;> exact ⟨_, rfl⟩
  | .incHl => ⟨_, rfl⟩
  | .decR r => by cases r <;> exact ⟨_, rfl⟩
  | .decHl => ⟨_, rfl⟩
  | .addHlSs p => by cases p <;> exact ⟨_, rfl⟩
  | .incSs p => by cases p <;> exact ⟨_, rfl⟩
  | .decSs p => by cases p <;> exact ⟨_, rfl⟩
  | .rlca => ⟨_, rfl⟩
  | .rrca => ⟨_, rfl⟩
  | .rla => ⟨_, rfl⟩
  | .rra => ⟨_, rfl⟩
  | .daa => ⟨_, rfl⟩
  | .cpl => ⟨_, rfl⟩
  | .scf => ⟨_, rfl⟩
  | .ccf => ⟨_, rfl⟩
  | .halt => ⟨_, rfl⟩
  | .jpNn _ => ⟨_, rfl⟩
  | .jpCc _ _ => ⟨_, rfl⟩
  | .jpHl => ⟨_, rfl⟩
  | .jrE _ => ⟨_, rfl⟩
  | .jrCc _ _ => ⟨_, rfl⟩
  | .djnz _ => ⟨_, rfl⟩
  | .callNn _ => ⟨_, rfl⟩
  | .callCc _ _ => ⟨_, rfl⟩
  | .ret => ⟨_, rfl⟩
  | .retCc _ => ⟨_, rfl⟩
  | .rst _ => ⟨_, rfl⟩
  | .rlcR r => by cases r <;> exact ⟨_, rfl⟩
  | .rlcHl => ⟨_, rfl⟩
  | .rrcR r => by cases r <;> exact ⟨_, rfl⟩
  | .rrcHl => ⟨_, rfl⟩
  | .rlR r => by cases r <;> exact ⟨_, rfl⟩
  | .rlHl => ⟨_, rfl⟩
  | .rrR r => by cases r <;> exact ⟨_, rfl⟩
  | .rrHl => ⟨_, rfl⟩
  | .slaR r => by cases r <;> exact ⟨_, rfl⟩
  | .slaHl => ⟨_, rfl⟩
  | .sraR r => by cases r <;> exact ⟨_, rfl⟩
  | .sraHl => ⟨_, rfl⟩
  | .sllR r => by cases r <;> exact ⟨_, rfl⟩
  | .sllHl => ⟨_, rfl⟩
  | .srlR r => by cases r <;> exact ⟨_, rfl⟩
  | .srlHl => ⟨_, rfl⟩
  | .bitR _ r => by cases r <;> exact ⟨_, rfl⟩
  | .bitHl _ => ⟨_, rfl⟩
  | .resR _ r => by cases r <;> exact ⟨_, rfl⟩
  | .resHl _ => ⟨_, rfl⟩
  | .setR _ r => by cases r <;> exact ⟨_, rfl⟩
  | .setHl _ => ⟨_, rfl⟩
  | .ldDdAbs p _ => by cases p <;> exact ⟨_, rfl⟩
  | .ldAbsDd p _ => by cases p <;> exact ⟨_, rfl⟩
  | .adcHlSs p => by cases p <;> exact ⟨_, rfl⟩
  | .sbcHlSs p => by cases p <;> exact ⟨_, rfl⟩
  | .neg => ⟨_, rfl⟩
  | .ldIA => ⟨_, rfl⟩
  | .ldRefreshA => ⟨_, rfl⟩
  | .ldAI => ⟨_, rfl⟩
  | .ldARefresh => ⟨_, rfl⟩
  | .ldXyNn x _ => by cases x <;> exact ⟨_, rfl⟩
  | .ldXyAbs x _ => by cases x <;> exact ⟨_, rfl⟩
  | .ldAbsXy x _ => by cases x <;> exact ⟨_, rfl⟩
  | .ldSpXy x => by cases x <;> exact ⟨_, rfl⟩
  | .pushXy x => by cases x <;> exact ⟨_, rfl⟩
  | .popXy x => by cases x <;> exact ⟨_, rfl⟩
  | .exSpXy x => by cases x <;> exact ⟨_, rfl⟩
  | .incXy x => by cases x <;> exact ⟨_, rfl⟩
  | .decXy x => by cases x <;> exact ⟨_, rfl⟩
  | .addXyPp x p => by cases x <;> cases p <;> exact ⟨_, rfl⟩
  | .jpXy x => by cases x <;> exact ⟨_, rfl⟩
  | .ldRXd r x _ => by cases r <;> cases x <;> exact ⟨_, rfl⟩
  | .ldXdR x _ r => by cases x <;> cases r <;> exact ⟨_, rfl⟩
  | .ldXdN x _ _ => by cases x <;> exact ⟨_, rfl⟩
  | .addXd x _ => by cases x <;> exact ⟨_, rfl⟩
  | .addXh x u => by cases x <;> cases u <;> exact ⟨_, rfl⟩
  | .adcXd x _ => by cases x <;> exact ⟨_, rfl⟩
  | .adcXh x u => by cases x <;> cases u <;> exact ⟨_, rfl⟩
  | .subXd x _ => by cases x <;> exact ⟨_, rfl⟩
  | .subXh x u => by cases x <;> cases u <;> exact ⟨_, rfl⟩
  | .sbcXd x _ => by cases x <;> exact ⟨_, rfl⟩
  | .sbcXh x u => by cases x <;> cases u <;> exact ⟨_, rfl⟩
  | .andXd x _ => by cases x <;> exact ⟨_, rfl⟩
  | .andXh x u => by cases x <;> cases u <;> exact ⟨_, rfl⟩
  | .xorXd x _ => by cases x <;> exact ⟨_, rfl⟩
  | .xorXh x u => by cases x <;> cases u <;> exact ⟨_, rfl⟩
  | .orXd x _ => by cases x <;> exact ⟨_, rfl⟩
  | .orXh x u => by cases x <;> cases u <;> exact ⟨_, rfl⟩
  | .cpXd x _ => by cases x <;> exact ⟨_, rfl⟩
  | .cpXh x u => by cases x <;> cases u <;> exact ⟨_, rfl⟩
  | .incXd x _ => by cases x <;> exact ⟨_, rfl⟩
  | .decXd x _ => by cases x <;> exact ⟨_, rfl⟩
  | .ldRho x t s => by cases x <;> cases t <;> cases s <;> exact ⟨_, rfl⟩
  | .ldXhN x u _ => by cases x <;> cases u <;> exact ⟨_, rfl⟩
  | .incXh x u => by cases x <;> cases u <;> exact ⟨_, rfl⟩
  | .decXh x u => by cases x <;> cases u <;> exact ⟨_, rfl⟩
  | .rlcXd x _ => by cases x <;> exact ⟨_, rfl⟩
  | .rlcXdR x _ r => by cases x <;> cases r <;> exact ⟨_, rfl⟩
  | .rrcXd x _ => by cases x <;> exact ⟨_, rfl⟩
  | .rrcXdR x _ r => by cases x <;> cases r <;> exact ⟨_, rfl⟩
  | .rlXd x _ => by cases x <;> exact ⟨_, rfl⟩
  | .rlXdR x _ r => by cases x <;> cases r <;> exact ⟨_, rfl⟩
  | .rrXd x _ => by cases x <;> exact ⟨_, rfl⟩
  | .rrXdR x _ r => by cases x <;> cases r <;> exact ⟨_, rfl⟩
  | .slaXd x _ => by cases x <;> exact ⟨_, rfl⟩
  | .slaXdR x _ r => by cases x <;> cases r <;> exact ⟨_, rfl⟩
  | .sraXd x _ => by cases x <;> exact ⟨_, rfl⟩
  | .sraXdR x _ r => by cases x <;> cases r <;> exact ⟨_, rfl⟩
  | .sllXd x _ => by cases x <;> exact ⟨_, rfl⟩
  | .sllXdR x _ r => by cases x <;> cases r <;> exact ⟨_, rfl⟩
  | .srlXd x _ => by cases x <;> exact ⟨_, rfl⟩
  | .srlXdR x _ r => by cases x <;> cases r <;> exact ⟨_, rfl⟩
  | .bitXd _ x _ => by cases x <;> exact ⟨_, rfl⟩
  | .resXd _ x _ => by cases x <;> exact ⟨_, rfl⟩
  | .setXd _ x _ => by cases x <;> exact ⟨_, rfl⟩

/-- The template of a row does not depend on its operand bytes (40_ir_fold.md R170). -/
theorem synth_key (cfg : Params) (i : Instr) : synth cfg (Instr.key i) = synth cfg i :=
  congrArg (buildCall cfg) (by cases i <;> rfl)

/-- The table holds the template of each of its keys. -/
theorem buildTable_ok (cfg : Params) (f : Instr → Template) (hf : ∀ i, synth cfg i = .ok (f i)) :
    buildTable cfg = .ok (opcodeKeys.map fun i => (i, f i)) :=
  assemble_ok opcodeKeys (synth cfg) f hf

/-- The fragment found in a table. -/
theorem fragmentOf_of_table {s : State} {table : OpcodeTable} (h : buildTable s.params = .ok table) (i : Instr) :
    fragmentOf s i = .ok ((table.lookup (Instr.key i)).map fun t => t (holesOf (s.nextAddress i.length) i)) := by
  unfold fragmentOf
  rw [h]

/-- The fragment of a well-formed instruction is its row's template at the decoded values. -/
theorem fragmentOf_eq {s : State} {i : Instr} {t : Template} (hw : i.wellFormed = true) (ht : synth s.params i = .ok t) :
    fragmentOf s i = .ok (some (t (holesOf (s.nextAddress i.length) i))) := by
  obtain ⟨f, hf⟩ := Classical.axiomOfChoice (synth_ok s.params)
  have hk : f (Instr.key i) = t := by
    have h := hf (Instr.key i)
    rw [synth_key, ht] at h
    exact (Except.ok.inj h).symm
  have hl := lookup_entries opcodeKeys f _ (mem_opcodeKeys (hasEntry_key i hw))
  rw [hk] at hl
  exact (fragmentOf_of_table (buildTable_ok s.params f hf) i).trans (congrArg (fun o => Except.ok (Option.map _ o)) hl)

end Sys2Proof.Machine
end

