-- ==== Sys2Proof/Tests/Slice0.lean ====
section
/-! SUPPORT. The model's own tests: ill-formed terms refused, words written out from the encodings of 30_encoding.md and
opcode_table.json, one-step vectors of 95_test_vectors.md and a few worked by hand from the rules, and a witness for the hypotheses
of every statement. -/

namespace Sys2Proof.Tests

open Sys2Proof Sys2Proof.Machine

/-! ## Helpers -/

/-- The start of the single-step vectors of 95_test_vectors.md, under `UNDOC_POLICY = Z80`. -/
def boot : State := { State.reset with pc := 0x0100, params := { Params.default with undoc := .z80 } }

/-- Launch bytes put in memory. -/
def place (s : State) (cells : List (Word × Byte)) : State := cells.foldl (fun t cell => t.launchByte cell.1 cell.2) s

/-- A view of the state after one step that runs the bytes, where there is a next state. -/
def after {α : Type} (s : State) (bytes : List Byte) (view : State → α) : Option α :=
  match step (s.launchAt bytes) with
  | .next t => some (view t)
  | .fault _ => none
  | .refused _ => none

/-- The fault of one step that runs the bytes. -/
def faultOf (s : State) (bytes : List Byte) : Option Fault :=
  match step (s.launchAt bytes) with
  | .fault r => some r
  | .next _ => none
  | .refused _ => none

/-- The refusal of one step that runs the bytes. -/
def refusalOf (s : State) (bytes : List Byte) : Option Refusal :=
  match step (s.launchAt bytes) with
  | .refused r => some r
  | .next _ => none
  | .fault _ => none

/-- The bytes are read as the instruction, and the instruction encodes to them. -/
def Reads (rows : List (List Byte × Instr)) : Prop :=
  ∀ row ∈ rows, decodeBytes row.1 = .ok row.2 ∧ encode row.2 = row.1

/-! ## Well-formedness (30_encoding.md R110) -/

theorem test_wellFormed_refuses_copy_without_half : Instr.wellFormed (.ldRho .ix .b .c) = false := by decide

theorem test_wellFormed_admits_copy_with_half :
    Instr.wellFormed (.ldRho .ix .xh .a) = true ∧ Instr.wellFormed (.ldRho .iy .d .xl) = true := by decide

theorem test_decode_refuses_copy_without_half : decodeBytes [0xDD, 0x41] = .error .notInBlock := by decide

/-! ## Words written out from the encodings (30_encoding.md R101 to R114, opcode_table.json) -/

theorem test_decode_loads : Reads [
    ([0x00], .nop),
    ([0x41], .ldRR .b .c),                     -- 01 000 001
    ([0x3E, 0x9C], .ldRN .a 0x9C),             -- 00 111 110 n
    ([0x5E], .ldRHl .e),                       -- 01 011 110
    ([0x72], .ldHlR .d),                       -- 01 110 010
    ([0x36, 0x33], .ldHlN 0x33),
    ([0x1A], .ldAPtr .de),                     -- 00 0 1 1010
    ([0x3A, 0x00, 0xC0], .ldAAbs 0xC000),
    ([0x02], .ldPtrA .bc),
    ([0x32, 0x10, 0xC0], .ldAbsA 0xC010),
    ([0x31, 0xF0, 0xDF], .ldDdNn .sp 0xDFF0),  -- 00 11 0001 l h
    ([0x2A, 0x34, 0x12], .ldHlAbs 0x1234),
    ([0x22, 0x00, 0xC0], .ldAbsHl 0xC000),
    ([0xF9], .ldSpHl)] := by unfold Reads; decide

theorem test_decode_stack_and_exchange : Reads [
    ([0xF5], .pushQq .af),                     -- 11 11 0101
    ([0xD1], .popQq .de),                      -- 11 01 0001
    ([0xEB], .exDeHl),
    ([0x08], .exAfAf),
    ([0xD9], .exx),
    ([0xE3], .exSpHl)] := by unfold Reads; decide

theorem test_decode_alu : Reads [
    ([0x80], .addR .b), ([0xC6, 0x01], .addN 0x01), ([0x86], .addHl),
    ([0x89], .adcR .c), ([0xCE, 0x0F], .adcN 0x0F), ([0x8E], .adcHl),
    ([0x92], .subR .d), ([0xD6, 0x02], .subN 0x02), ([0x96], .subHl),
    ([0x9B], .sbcR .e), ([0xDE, 0xFF], .sbcN 0xFF), ([0x9E], .sbcHl),
    ([0xA4], .andR .h), ([0xE6, 0x00], .andN 0x00), ([0xA6], .andHl),
    ([0xAD], .xorR .l), ([0xEE, 0xAA], .xorN 0xAA), ([0xAE], .xorHl),
    ([0xB7], .orR .a), ([0xF6, 0x28], .orN 0x28), ([0xB6], .orHl),
    ([0xB9], .cpR .c), ([0xFE, 0x28], .cpN 0x28), ([0xBE], .cpHl)] := by unfold Reads; decide

theorem test_decode_counts_and_accumulator : Reads [
    ([0x3C], .incR .a), ([0x34], .incHl), ([0x0D], .decR .c), ([0x35], .decHl),
    ([0x39], .addHlSs .sp), ([0x13], .incSs .de), ([0x2B], .decSs .hl),
    ([0x07], .rlca), ([0x0F], .rrca), ([0x17], .rla), ([0x1F], .rra),
    ([0x27], .daa), ([0x2F], .cpl), ([0x37], .scf), ([0x3F], .ccf), ([0x76], .halt)] := by unfold Reads; decide

theorem test_decode_control : Reads [
    ([0xC3, 0x00, 0x80], .jpNn 0x8000),
    ([0xEA, 0x00, 0x20], .jpCc .pe 0x2000),    -- 11 101 010 l h
    ([0xE9], .jpHl),
    ([0x18, 0xFE], .jrE 0xFE),
    ([0x38, 0x80], .jrCc .c 0x80),             -- 001 11 000 e
    ([0x10, 0x05], .djnz 0x05),
    ([0xCD, 0x34, 0x12], .callNn 0x1234),
    ([0xD4, 0x00, 0x30], .callCc .nc 0x3000),  -- 11 010 100 l h
    ([0xC9], .ret),
    ([0xE0], .retCc .po),                      -- 11 100 000
    ([0xCF], .rst 1)] := by unfold Reads; decide

theorem test_decode_cb_rotates : Reads [
    ([0xCB, 0x07], .rlcR .a), ([0xCB, 0x06], .rlcHl), ([0xCB, 0x08], .rrcR .b), ([0xCB, 0x0E], .rrcHl),
    ([0xCB, 0x11], .rlR .c), ([0xCB, 0x16], .rlHl), ([0xCB, 0x1A], .rrR .d), ([0xCB, 0x1E], .rrHl),
    ([0xCB, 0x23], .slaR .e), ([0xCB, 0x26], .slaHl), ([0xCB, 0x2C], .sraR .h), ([0xCB, 0x2E], .sraHl),
    ([0xCB, 0x35], .sllR .l), ([0xCB, 0x36], .sllHl), ([0xCB, 0x3F], .srlR .a), ([0xCB, 0x3E], .srlHl)] := by
  unfold Reads; decide

theorem test_decode_cb_bits : Reads [
    ([0xCB, 0x68], .bitR 5 .b),                -- 01 101 000
    ([0xCB, 0x7E], .bitHl 7),
    ([0xCB, 0x87], .resR 0 .a),
    ([0xCB, 0xBE], .resHl 7),
    ([0xCB, 0xFD], .setR 7 .l),
    ([0xCB, 0xC6], .setHl 0)] := by unfold Reads; decide

theorem test_decode_ed : Reads [
    ([0xED, 0x4B, 0x00, 0xC0], .ldDdAbs .bc 0xC000),
    ([0xED, 0x73, 0x01, 0xC0], .ldAbsDd .sp 0xC001),
    ([0xED, 0x7A], .adcHlSs .sp),
    ([0xED, 0x52], .sbcHlSs .de),
    ([0xED, 0x44], .neg),
    ([0xED, 0x47], .ldIA),
    ([0xED, 0x4F], .ldRefreshA),
    ([0xED, 0x57], .ldAI),
    ([0xED, 0x5F], .ldARefresh)] := by unfold Reads; decide

theorem test_decode_index_words : Reads [
    ([0xFD, 0x21, 0x34, 0x12], .ldXyNn .iy 0x1234),
    ([0xDD, 0x2A, 0x00, 0xC0], .ldXyAbs .ix 0xC000),
    ([0xFD, 0x22, 0x00, 0xC0], .ldAbsXy .iy 0xC000),
    ([0xDD, 0xF9], .ldSpXy .ix),
    ([0xDD, 0xE5], .pushXy .ix),
    ([0xFD, 0xE1], .popXy .iy),
    ([0xFD, 0xE3], .exSpXy .iy),
    ([0xDD, 0x23], .incXy .ix),
    ([0xFD, 0x2B], .decXy .iy),
    ([0xDD, 0x29], .addXyPp .ix .xy),          -- 00 10 1001
    ([0xFD, 0xE9], .jpXy .iy)] := by unfold Reads; decide

theorem test_decode_index_bytes : Reads [
    ([0xFD, 0x66, 0x01], .ldRXd .h .iy 0x01),  -- 01 100 110 d
    ([0xDD, 0x75, 0x7F], .ldXdR .ix 0x7F .l),  -- 01 110 101 d
    ([0xFD, 0x36, 0x02, 0x77], .ldXdN .iy 0x02 0x77),
    ([0xDD, 0x86, 0x05], .addXd .ix 0x05), ([0xDD, 0x84], .addXh .ix .high),
    ([0xFD, 0x8E, 0xFF], .adcXd .iy 0xFF), ([0xFD, 0x8D], .adcXh .iy .low),
    ([0xDD, 0x96, 0x00], .subXd .ix 0x00), ([0xFD, 0x95], .subXh .iy .low),
    ([0xFD, 0x9E, 0x80], .sbcXd .iy 0x80), ([0xDD, 0x9C], .sbcXh .ix .high),
    ([0xDD, 0xA6, 0x7F], .andXd .ix 0x7F), ([0xDD, 0xA5], .andXh .ix .low),
    ([0xDD, 0xAE, 0x02], .xorXd .ix 0x02), ([0xFD, 0xAC], .xorXh .iy .high),
    ([0xFD, 0xB6, 0x03], .orXd .iy 0x03), ([0xFD, 0xB4], .orXh .iy .high),
    ([0xDD, 0xBE, 0xFF], .cpXd .ix 0xFF), ([0xDD, 0xBD], .cpXh .ix .low),
    ([0xFD, 0x34, 0x80], .incXd .iy 0x80), ([0xDD, 0x35, 0x01], .decXd .ix 0x01)] := by unfold Reads; decide

theorem test_decode_index_halves : Reads [
    ([0xDD, 0x6C], .ldRho .ix .xl .xh),        -- 01 101 100
    ([0xFD, 0x7D], .ldRho .iy .a .xl),         -- 01 111 101
    ([0xFD, 0x26, 0x42], .ldXhN .iy .high 0x42),
    ([0xDD, 0x2E, 0x43], .ldXhN .ix .low 0x43),
    ([0xDD, 0x2C], .incXh .ix .low),
    ([0xFD, 0x25], .decXh .iy .high)] := by unfold Reads; decide

theorem test_decode_indexCb_rotates : Reads [
    ([0xDD, 0xCB, 0x01, 0x06], .rlcXd .ix 0x01), ([0xDD, 0xCB, 0x02, 0x00], .rlcXdR .ix 0x02 .b),
    ([0xFD, 0xCB, 0x03, 0x0E], .rrcXd .iy 0x03), ([0xFD, 0xCB, 0x04, 0x09], .rrcXdR .iy 0x04 .c),
    ([0xDD, 0xCB, 0x05, 0x16], .rlXd .ix 0x05), ([0xDD, 0xCB, 0x06, 0x12], .rlXdR .ix 0x06 .d),
    ([0xFD, 0xCB, 0x07, 0x1E], .rrXd .iy 0x07), ([0xFD, 0xCB, 0x08, 0x1B], .rrXdR .iy 0x08 .e),
    ([0xDD, 0xCB, 0x09, 0x26], .slaXd .ix 0x09), ([0xFD, 0xCB, 0xFF, 0x27], .slaXdR .iy 0xFF .a),
    ([0xFD, 0xCB, 0x0B, 0x2E], .sraXd .iy 0x0B), ([0xFD, 0xCB, 0x0C, 0x2D], .sraXdR .iy 0x0C .l),
    ([0xDD, 0xCB, 0x0D, 0x36], .sllXd .ix 0x0D), ([0xDD, 0xCB, 0x01, 0x34], .sllXdR .ix 0x01 .h),
    ([0xFD, 0xCB, 0x0F, 0x3E], .srlXd .iy 0x0F), ([0xDD, 0xCB, 0x80, 0x38], .srlXdR .ix 0x80 .b)] := by
  unfold Reads; decide

theorem test_decode_indexCb_bits : Reads [
    ([0xDD, 0xCB, 0x02, 0x76], .bitXd 6 .ix 0x02),
    ([0xFD, 0xCB, 0x00, 0x9E], .resXd 3 .iy 0x00),
    ([0xDD, 0xCB, 0xFE, 0xE6], .setXd 4 .ix 0xFE)] := by unfold Reads; decide

/-- The table numbers a word's first byte as the most significant (30_encoding.md R119): `JP 8000H` is `0xC30080`, and a word cut to
its opcode bits has operand bytes of zeros. -/
theorem test_decode_table_word :
    decodeTableWord 24 0xC30080 = some (.jpNn 0x8000) ∧ decodeTableWord 32 0xDDCB0246 = some (.bitXd 0 .ix 0x02)
    ∧ decodeTableWord 8 0xDB = none := by decide

/-! ## One step: the vectors of 95_test_vectors.md -/

/-! ### Table 3.1 of 95_test_vectors.md -/

/-- R271: `ADD A,B`. -/
theorem test_3_1_1_add_a_b : after { boot with a := 0x0F, b := 0x01 } [0x80]
    (fun t => (t.a, t.f, t.pc)) = some (0x10, 0x10, 0x0101) := by decide

/-- R271: `ADD A,n`. -/
theorem test_3_1_3_add_a_n : after { boot with a := 0xFF } [0xC6, 0x01]
    (fun t => (t.a, t.f, t.pc)) = some (0x00, 0x51, 0x0102) := by decide

/-- R272: `ADC A,n`. -/
theorem test_3_1_5_adc_a_n : after { boot with f := 0x01 } [0xCE, 0x0F]
    (fun t => (t.a, t.f, t.pc)) = some (0x10, 0x10, 0x0102) := by decide

/-- R272: `ADC A,(HL)`. -/
theorem test_3_1_7_adc_a_hl : after (place { boot with a := 0xFF, h := 0xC0, f := 0x01 } [(0xC000, 0x00)]) [0x8E]
    (fun t => (t.a, t.f, t.pc)) = some (0x00, 0x51, 0x0101) := by decide

/-- R273: `SUB n`. -/
theorem test_3_1_8_sub_n : after boot [0xD6, 0x01]
    (fun t => (t.a, t.f, t.pc)) = some (0xFF, 0xBB, 0x0102) := by decide

/-- R273: `SUB A`. -/
theorem test_3_1_9_sub_a : after { boot with a := 0x5A, f := 0x01 } [0x97]
    (fun t => (t.a, t.f, t.pc)) = some (0x00, 0x42, 0x0101) := by decide

/-- R274: `SBC A,n`. -/
theorem test_3_1_11_sbc_a_n : after { boot with a := 0x80, f := 0x01 } [0xDE, 0x00]
    (fun t => (t.a, t.f, t.pc)) = some (0x7F, 0x3E, 0x0102) := by decide

/-- R275: `CP (IX+d)`. -/
theorem test_3_1_15_cp_ix_d : after (place { boot with a := 0x05, ixh := 0xC0, ixl := 0x01 } [(0xC000, 0x05)]) [0xDD, 0xBE, 0xFF]
    (fun t => (t.f, t.pc)) = some (0x42, 0x0103) := by decide

/-- R271: `ADD A,IXH`. -/
theorem test_3_1_16_add_a_ixh : after { boot with a := 0x01, ixh := 0x7F } [0xDD, 0x84]
    (fun t => (t.a, t.f, t.pc)) = some (0x80, 0x94, 0x0102) := by decide

/-- R273: `SUB IYL`. -/
theorem test_3_1_17_sub_iyl : after { boot with a := 0x01, iyl := 0x02 } [0xFD, 0x95]
    (fun t => (t.a, t.f, t.pc)) = some (0xFF, 0xBB, 0x0102) := by decide

/-- R276: `INC A`. -/
theorem test_3_1_18_inc_a : after { boot with a := 0xFF } [0x3C]
    (fun t => (t.a, t.f, t.pc)) = some (0x00, 0x50, 0x0101) := by decide

/-- R276: `INC (HL)`. -/
theorem test_3_1_20_inc_hl : after (place { boot with h := 0xC0 } [(0xC000, 0x7F)]) [0x34]
    (fun t => (t.f, t.pc, t.readByte 0xC000)) = some (0x94, 0x0101, 0x80) := by decide

/-- R276: `INC (IY+d)`. -/
theorem test_3_1_21_inc_iy_d : after (place { boot with iyh := 0xC0, iyl := 0x80 } [(0xC000, 0x3F)]) [0xFD, 0x34, 0x80]
    (fun t => (t.f, t.pc, t.readByte 0xC000)) = some (0x10, 0x0103, 0x40) := by decide

/-- R276: `INC IXL`. -/
theorem test_3_1_22_inc_ixl : after { boot with ixh := 0x12, ixl := 0xFF } [0xDD, 0x2C]
    (fun t => (t.f, t.ixl, t.pc)) = some (0x50, 0x00, 0x0102) := by decide

/-- R277: `DEC C`. -/
theorem test_3_1_23_dec_c : after { boot with c := 0x80, f := 0x01 } [0x0D]
    (fun t => (t.f, t.c, t.pc)) = some (0x3F, 0x7F, 0x0101) := by decide

/-- R277: `DEC IYH`. -/
theorem test_3_1_25_dec_iyh : after { boot with iyh := 0x01 } [0xFD, 0x25]
    (fun t => (t.f, t.iyh, t.pc)) = some (0x42, 0x00, 0x0102) := by decide

/-- R277: `DEC (IX+d)`. -/
theorem test_3_1_26_dec_ix_d : after (place { boot with ixh := 0xC0 } [(0xC001, 0x01)]) [0xDD, 0x35, 0x01]
    (fun t => (t.f, t.pc, t.readByte 0xC001)) = some (0x42, 0x0103, 0x00) := by decide

/-! ### Table 3.2 of 95_test_vectors.md -/

/-- R301: `AND n`. -/
theorem test_3_2_1_and_n : after { boot with a := 0xFF, f := 0xFF } [0xE6, 0x00]
    (fun t => (t.a, t.f, t.pc)) = some (0x00, 0x54, 0x0102) := by decide

/-- R301: `AND (HL)`. -/
theorem test_3_2_2_and_hl : after (place { boot with a := 0x81, h := 0xC0 } [(0xC000, 0x80)]) [0xA6]
    (fun t => (t.a, t.f, t.pc)) = some (0x80, 0x90, 0x0101) := by decide

/-- R301: `AND IXL`. -/
theorem test_3_2_3_and_ixl : after { boot with a := 0x0F, ixl := 0x03 } [0xDD, 0xA5]
    (fun t => (t.a, t.f, t.pc)) = some (0x03, 0x14, 0x0102) := by decide

/-- R302: `XOR n`. -/
theorem test_3_2_4_xor_n : after { boot with a := 0x0F, f := 0x01 } [0xEE, 0xFF]
    (fun t => (t.a, t.f, t.pc)) = some (0xF0, 0xA4, 0x0102) := by decide

/-- R302: `XOR B`. -/
theorem test_3_2_5_xor_b : after { boot with a := 0x01, b := 0x02 } [0xA8]
    (fun t => (t.a, t.f, t.pc)) = some (0x03, 0x04, 0x0101) := by decide

/-- R302: `XOR (IX+d)`. -/
theorem test_3_2_6_xor_ix_d : after (place { boot with a := 0x55, ixh := 0xC0 } [(0xC002, 0x55)]) [0xDD, 0xAE, 0x02]
    (fun t => (t.a, t.f, t.pc)) = some (0x00, 0x44, 0x0103) := by decide

/-- R303: `OR A`. -/
theorem test_3_2_7_or_a : after { boot with f := 0xFF } [0xB7]
    (fun t => (t.f, t.pc)) = some (0x44, 0x0101) := by decide

/-- R303: `OR n`. -/
theorem test_3_2_8_or_n : after boot [0xF6, 0x28]
    (fun t => (t.a, t.f, t.pc)) = some (0x28, 0x2C, 0x0102) := by decide

/-- R303: `OR IYH`. -/
theorem test_3_2_9_or_iyh : after { boot with a := 0x01, iyh := 0x02 } [0xFD, 0xB4]
    (fun t => (t.a, t.f, t.pc)) = some (0x03, 0x04, 0x0102) := by decide

/-! ### Table 3.3 of 95_test_vectors.md -/

/-- R315: `ADD HL,HL`. -/
theorem test_3_3_1_add_hl_hl : after { boot with h := 0x80, f := 0xC4 } [0x29]
    (fun t => (t.f, t.h, t.pc)) = some (0xC5, 0x00, 0x0101) := by decide

/-- R315: `ADD HL,SP`. -/
theorem test_3_3_2_add_hl_sp : after { boot with h := 0x08, sp := 0x0800 } [0x39]
    (fun t => (t.f, t.h, t.pc)) = some (0x10, 0x10, 0x0101) := by decide

/-- R316: `ADD IX,BC`. -/
theorem test_3_3_3_add_ix_bc : after { boot with ixh := 0xFF, ixl := 0xFF, c := 0x01, f := 0x40 } [0xDD, 0x09]
    (fun t => (t.f, t.ixh, t.ixl, t.pc)) = some (0x51, 0x00, 0x00, 0x0102) := by decide

/-- R316: `ADD IY,SP`. -/
theorem test_3_3_4_add_iy_sp : after { boot with iyh := 0x28, sp := 0x0800 } [0xFD, 0x39]
    (fun t => (t.f, t.iyh, t.pc)) = some (0x30, 0x30, 0x0102) := by decide

/-- R318: `ADC HL,BC`. -/
theorem test_3_3_5_adc_hl_bc : after { boot with h := 0x0F, l := 0xFF, f := 0x01 } [0xED, 0x4A]
    (fun t => (t.f, t.h, t.l, t.pc)) = some (0x10, 0x10, 0x00, 0x0102) := by decide

/-- R318: `ADC HL,SP`. -/
theorem test_3_3_6_adc_hl_sp : after { boot with h := 0x80, sp := 0x8000 } [0xED, 0x7A]
    (fun t => (t.f, t.h, t.pc)) = some (0x45, 0x00, 0x0102) := by decide

/-- R319: `SBC HL,DE`. -/
theorem test_3_3_8_sbc_hl_de : after { boot with h := 0x10, e := 0x01 } [0xED, 0x52]
    (fun t => (t.f, t.h, t.l, t.pc)) = some (0x12, 0x0F, 0xFF, 0x0102) := by decide

/-- R319: `SBC HL,BC`. -/
theorem test_3_3_10_sbc_hl_bc : after { boot with h := 0x7F, l := 0xFF, b := 0xFF, c := 0xFF } [0xED, 0x42]
    (fun t => (t.f, t.h, t.l, t.pc)) = some (0x87, 0x80, 0x00, 0x0102) := by decide

/-- R320: `INC BC`. -/
theorem test_3_3_11_inc_bc : after { boot with c := 0xFF } [0x03]
    (fun t => (t.f, t.b, t.c, t.pc)) = some (0x00, 0x01, 0x00, 0x0101) := by decide

/-- R320: `INC SP`. -/
theorem test_3_3_12_inc_sp : after { boot with sp := 0xFFFF } [0x33]
    (fun t => (t.f, t.sp, t.pc)) = some (0x00, 0x0000, 0x0101) := by decide

/-- R322: `DEC DE`. -/
theorem test_3_3_13_dec_de : after { boot with d := 0x01, f := 0xFF } [0x1B]
    (fun t => (t.f, t.d, t.e, t.pc)) = some (0xFF, 0x00, 0xFF, 0x0101) := by decide

/-- R322: `DEC HL`. -/
theorem test_3_3_14_dec_hl : after boot [0x2B]
    (fun t => (t.f, t.h, t.l, t.pc)) = some (0x00, 0xFF, 0xFF, 0x0101) := by decide

/-- R321: `INC IX`. -/
theorem test_3_3_15_inc_ix : after { boot with ixh := 0xFF, ixl := 0xFF } [0xDD, 0x23]
    (fun t => (t.f, t.ixh, t.ixl, t.pc)) = some (0x00, 0x00, 0x00, 0x0102) := by decide

/-- R323: `DEC IY`. -/
theorem test_3_3_16_dec_iy : after boot [0xFD, 0x2B]
    (fun t => (t.f, t.iyh, t.iyl, t.pc)) = some (0x00, 0xFF, 0xFF, 0x0102) := by decide

/-! ### Table 3.4 of 95_test_vectors.md -/

/-- R341: `RLCA`. -/
theorem test_3_4_1_rlca : after { boot with f := 0xC4 } [0x07]
    (fun t => (t.f, t.pc)) = some (0xC4, 0x0101) := by decide

/-- R342: `RRCA`. -/
theorem test_3_4_2_rrca : after { boot with a := 0x02, f := 0x01 } [0x0F]
    (fun t => (t.a, t.f, t.pc)) = some (0x01, 0x00, 0x0101) := by decide

/-- R343: `RLA`. -/
theorem test_3_4_3_rla : after { boot with a := 0x7F, f := 0x01 } [0x17]
    (fun t => (t.a, t.f, t.pc)) = some (0xFF, 0x28, 0x0101) := by decide

/-- R344: `RRA`. -/
theorem test_3_4_4_rra : after { boot with f := 0x01 } [0x1F]
    (fun t => (t.a, t.f, t.pc)) = some (0x80, 0x00, 0x0101) := by decide

/-- R345: `RLC A`. -/
theorem test_3_4_5_rlc_a : after boot [0xCB, 0x07]
    (fun t => (t.f, t.pc)) = some (0x44, 0x0102) := by decide

/-- R346: `RRC B`. -/
theorem test_3_4_7_rrc_b : after { boot with b := 0xFE } [0xCB, 0x08]
    (fun t => (t.f, t.b, t.pc)) = some (0x28, 0x7F, 0x0102) := by decide

/-- R347: `RL C`. -/
theorem test_3_4_8_rl_c : after { boot with c := 0x7F, f := 0x01 } [0xCB, 0x11]
    (fun t => (t.f, t.c, t.pc)) = some (0xAC, 0xFF, 0x0102) := by decide

/-- R348: `RR D`. -/
theorem test_3_4_10_rr_d : after { boot with f := 0x01 } [0xCB, 0x1A]
    (fun t => (t.f, t.d, t.pc)) = some (0x80, 0x80, 0x0102) := by decide

/-- R349: `SLA E`. -/
theorem test_3_4_11_sla_e : after { boot with e := 0x40 } [0xCB, 0x23]
    (fun t => (t.f, t.e, t.pc)) = some (0x80, 0x80, 0x0102) := by decide

/-- R350: `SRA H`. -/
theorem test_3_4_13_sra_h : after { boot with h := 0x01 } [0xCB, 0x2C]
    (fun t => (t.f, t.h, t.pc)) = some (0x45, 0x00, 0x0102) := by decide

/-- R351: `SLL L`. -/
theorem test_3_4_14_sll_l : after boot [0xCB, 0x35]
    (fun t => (t.f, t.l, t.pc)) = some (0x00, 0x01, 0x0102) := by decide

/-- R352: `SRL A`. -/
theorem test_3_4_16_srl_a : after { boot with a := 0x80, f := 0x01 } [0xCB, 0x3F]
    (fun t => (t.a, t.f, t.pc)) = some (0x40, 0x00, 0x0102) := by decide

/-! ### Table 3.5 of 95_test_vectors.md -/

/-- R366: `BIT 5,B`. -/
theorem test_3_5_2_bit_5_b : after { boot with b := 0x28, f := 0x01 } [0xCB, 0x68]
    (fun t => (t.f, t.pc)) = some (0x39, 0x0102) := by decide

/-- R366: `BIT 7,H`. -/
theorem test_3_5_3_bit_7_h : after { boot with h := 0x7F } [0xCB, 0x7C]
    (fun t => (t.f, t.pc)) = some (0x7C, 0x0102) := by decide

/-- R366: `BIT 6,(IX+d)`. -/
theorem test_3_5_4_bit_6_ix_d : after (place { boot with ixh := 0xC0, f := 0x01 } [(0xC002, 0x40)]) [0xDD, 0xCB, 0x02, 0x76]
    (fun t => (t.pc, t.draws)) = some (0x0104, 1) := by decide

/-- R367: `RES 0,A`. -/
theorem test_3_5_5_res_0_a : after { boot with a := 0xFF, f := 0x12 } [0xCB, 0x87]
    (fun t => (t.a, t.f, t.pc)) = some (0xFE, 0x12, 0x0102) := by decide

/-- R367: `RES 7,(HL)`. -/
theorem test_3_5_6_res_7_hl : after (place { boot with h := 0xC0 } [(0xC000, 0x80)]) [0xCB, 0xBE]
    (fun t => (t.f, t.pc, t.readByte 0xC000)) = some (0x00, 0x0102, 0x00) := by decide

/-- R367: `RES 3,(IY+d)`. -/
theorem test_3_5_7_res_3_iy_d : after (place { boot with iyh := 0xC0 } [(0xC000, 0xFF)]) [0xFD, 0xCB, 0x00, 0x9E]
    (fun t => (t.f, t.pc, t.readByte 0xC000)) = some (0x00, 0x0104, 0xF7) := by decide

/-- R368: `SET 7,L`. -/
theorem test_3_5_8_set_7_l : after { boot with f := 0x44 } [0xCB, 0xFD]
    (fun t => (t.f, t.l, t.pc)) = some (0x44, 0x80, 0x0102) := by decide

/-- R368: `SET 0,(HL)`. -/
theorem test_3_5_9_set_0_hl : after (place { boot with h := 0xC0 } [(0xC000, 0x00)]) [0xCB, 0xC6]
    (fun t => (t.f, t.pc, t.readByte 0xC000)) = some (0x00, 0x0102, 0x01) := by decide

/-- R368: `SET 4,(IX+d)`. -/
theorem test_3_5_10_set_4_ix_d : after (place { boot with ixh := 0xC0, ixl := 0x02 } [(0xC000, 0x01)]) [0xDD, 0xCB, 0xFE, 0xE6]
    (fun t => (t.f, t.pc, t.readByte 0xC000)) = some (0x00, 0x0104, 0x11) := by decide

/-! ### Table 3.6 of 95_test_vectors.md -/

/-- R221: `LD B,C`. -/
theorem test_3_6_1_ld_b_c : after { boot with c := 0x5A } [0x41]
    (fun t => (t.f, t.b, t.pc)) = some (0x00, 0x5A, 0x0101) := by decide

/-- R223: `LD A,n`. -/
theorem test_3_6_2_ld_a_n : after boot [0x3E, 0x9C]
    (fun t => (t.a, t.f, t.pc)) = some (0x9C, 0x00, 0x0102) := by decide

/-- R224: `LD E,(HL)`. -/
theorem test_3_6_3_ld_e_hl : after (place { boot with h := 0xC0 } [(0xC000, 0x11)]) [0x5E]
    (fun t => (t.f, t.e, t.pc)) = some (0x00, 0x11, 0x0101) := by decide

/-- R225: `LD (HL),D`. -/
theorem test_3_6_4_ld_hl_d : after { boot with h := 0xC0, d := 0x22 } [0x72]
    (fun t => (t.f, t.pc, t.readByte 0xC000)) = some (0x00, 0x0101, 0x22) := by decide

/-- R226: `LD (HL),n`. -/
theorem test_3_6_5_ld_hl_n : after { boot with h := 0xC0 } [0x36, 0x33]
    (fun t => (t.f, t.pc, t.readByte 0xC000)) = some (0x00, 0x0102, 0x33) := by decide

/-- R227: `LD C,(IX+d)`. -/
theorem test_3_6_6_ld_c_ix_d : after (place { boot with ixh := 0xC0, ixl := 0x02 } [(0xC000, 0x44)]) [0xDD, 0x4E, 0xFE]
    (fun t => (t.f, t.c, t.pc)) = some (0x00, 0x44, 0x0103) := by decide

/-- R227: `LD H,(IY+d)`. -/
theorem test_3_6_7_ld_h_iy_d : after (place { boot with iyh := 0xC0 } [(0xC001, 0x55)]) [0xFD, 0x66, 0x01]
    (fun t => (t.f, t.h, t.pc)) = some (0x00, 0x55, 0x0103) := by decide

/-- R228: `LD (IX+d),L`. -/
theorem test_3_6_8_ld_ix_d_l : after { boot with ixh := 0xC0, l := 0x66 } [0xDD, 0x75, 0x7F]
    (fun t => (t.f, t.pc, t.readByte 0xC07F)) = some (0x00, 0x0103, 0x66) := by decide

/-- R229: `LD (IY+d),n`. -/
theorem test_3_6_9_ld_iy_d_n : after { boot with iyh := 0xC0 } [0xFD, 0x36, 0x00, 0x77]
    (fun t => (t.f, t.pc, t.readByte 0xC000)) = some (0x00, 0x0104, 0x77) := by decide

/-- R230: `LD A,(DE)`. -/
theorem test_3_6_10_ld_a_de : after (place { boot with d := 0xC0 } [(0xC000, 0x88)]) [0x1A]
    (fun t => (t.a, t.f, t.pc)) = some (0x88, 0x00, 0x0101) := by decide

/-- R231: `LD A,(nn)`. -/
theorem test_3_6_11_ld_a_nn : after (place boot [(0xC000, 0x99)]) [0x3A, 0x00, 0xC0]
    (fun t => (t.a, t.f, t.pc)) = some (0x99, 0x00, 0x0103) := by decide

/-- R236: `LD (BC),A`. -/
theorem test_3_6_12_ld_bc_a : after { boot with b := 0xC0, a := 0xAA } [0x02]
    (fun t => (t.f, t.pc, t.readByte 0xC000)) = some (0x00, 0x0101, 0xAA) := by decide

/-- R237: `LD (nn),A`. -/
theorem test_3_6_13_ld_nn_a : after { boot with a := 0xBB } [0x32, 0x10, 0xC0]
    (fun t => (t.f, t.pc, t.readByte 0xC010)) = some (0x00, 0x0103, 0xBB) := by decide

/-- R232: `LD I,A`. -/
theorem test_3_6_14_ld_i_a : after { boot with a := 0xCC } [0xED, 0x47]
    (fun t => (t.f, t.i, t.pc)) = some (0x00, 0xCC, 0x0102) := by decide

/-- R233: `LD A,I`. -/
theorem test_3_6_15_ld_a_i : after { boot with iff2 := 1, f := 0x01 } [0xED, 0x57]
    (fun t => (t.f, t.pc)) = some (0x45, 0x0102) := by decide

/-- R233: `LD A,I`. -/
theorem test_3_6_16_ld_a_i : after { boot with i := 0x80 } [0xED, 0x57]
    (fun t => (t.a, t.f, t.pc)) = some (0x80, 0x80, 0x0102) := by decide

/-- R235: `LD R,A`. -/
theorem test_3_6_17_ld_r_a : after { boot with a := 0x7F } [0xED, 0x4F]
    (fun t => (t.f, t.r, t.pc)) = some (0x00, 0x7F, 0x0102) := by decide

/-- R239: `LD A,IYL`. -/
theorem test_3_6_19_ld_a_iyl : after { boot with iyl := 0xEE } [0xFD, 0x7D]
    (fun t => (t.a, t.f, t.pc)) = some (0xEE, 0x00, 0x0102) := by decide

/-- R239: `LD IXL,IXH`. -/
theorem test_3_6_20_ld_ixl_ixh : after { boot with ixh := 0x34 } [0xDD, 0x6C]
    (fun t => (t.f, t.ixl, t.pc)) = some (0x00, 0x34, 0x0102) := by decide

/-- R240: `LD IYH,n`. -/
theorem test_3_6_21_ld_iyh_n : after boot [0xFD, 0x26, 0x42]
    (fun t => (t.f, t.iyh, t.pc)) = some (0x00, 0x42, 0x0103) := by decide

/-- R241: `LD SP,nn`. -/
theorem test_3_6_22_ld_sp_nn : after boot [0x31, 0xF0, 0xDF]
    (fun t => (t.f, t.sp, t.pc)) = some (0x00, 0xDFF0, 0x0103) := by decide

/-- R242: `LD IY,nn`. -/
theorem test_3_6_23_ld_iy_nn : after boot [0xFD, 0x21, 0x34, 0x12]
    (fun t => (t.f, t.iyh, t.iyl, t.pc)) = some (0x00, 0x12, 0x34, 0x0104) := by decide

/-- R243: `LD HL,(nn)`. -/
theorem test_3_6_24_ld_hl_nn : after (place boot [(0x1234, 0x78), (0x1235, 0x56)]) [0x2A, 0x34, 0x12]
    (fun t => (t.f, t.h, t.l, t.pc)) = some (0x00, 0x56, 0x78, 0x0103) := by decide

/-- R243: `LD HL,(nn)`. -/
theorem test_3_6_25_ld_hl_nn : after (place boot [(0x0000, 0x02), (0xFFFF, 0x01)]) [0x2A, 0xFF, 0xFF]
    (fun t => (t.f, t.h, t.l, t.pc)) = some (0x00, 0x02, 0x01, 0x0103) := by decide

/-- R244: `LD BC,(nn)`. -/
theorem test_3_6_26_ld_bc_nn : after (place boot [(0xC000, 0xCD), (0xC001, 0xAB)]) [0xED, 0x4B, 0x00, 0xC0]
    (fun t => (t.f, t.b, t.c, t.pc)) = some (0x00, 0xAB, 0xCD, 0x0104) := by decide

/-- R245: `LD IX,(nn)`. -/
theorem test_3_6_27_ld_ix_nn : after (place boot [(0xC000, 0x02), (0xC001, 0x01)]) [0xDD, 0x2A, 0x00, 0xC0]
    (fun t => (t.f, t.ixh, t.ixl, t.pc)) = some (0x00, 0x01, 0x02, 0x0104) := by decide

/-- R246: `LD (nn),HL`. -/
theorem test_3_6_28_ld_nn_hl : after { boot with h := 0x12, l := 0x34 } [0x22, 0x00, 0xC0]
    (fun t => (t.f, t.pc, t.readByte 0xC000, t.readByte 0xC001)) = some (0x00, 0x0103, 0x34, 0x12) := by decide

/-- R247: `LD (nn),DE`. -/
theorem test_3_6_29_ld_nn_de : after { boot with d := 0xBE, e := 0xEF } [0xED, 0x53, 0x00, 0xC0]
    (fun t => (t.f, t.pc, t.readByte 0xC000, t.readByte 0xC001)) = some (0x00, 0x0104, 0xEF, 0xBE) := by decide

/-- R248: `LD (nn),IY`. -/
theorem test_3_6_30_ld_nn_iy : after { boot with iyh := 0xCA, iyl := 0xFE } [0xFD, 0x22, 0x00, 0xC0]
    (fun t => (t.f, t.pc, t.readByte 0xC000, t.readByte 0xC001)) = some (0x00, 0x0104, 0xFE, 0xCA) := by decide

/-- R249: `LD SP,HL`. -/
theorem test_3_6_31_ld_sp_hl : after { boot with h := 0xD0 } [0xF9]
    (fun t => (t.f, t.sp, t.pc)) = some (0x00, 0xD000, 0x0101) := by decide

/-- R250: `LD SP,IX`. -/
theorem test_3_6_32_ld_sp_ix : after { boot with ixh := 0xD1 } [0xDD, 0xF9]
    (fun t => (t.f, t.sp, t.pc)) = some (0x00, 0xD100, 0x0102) := by decide

/-! ### Table 3.7 of 95_test_vectors.md -/

/-- R388: `JP nn`. -/
theorem test_3_7_1_jp_nn : after { boot with page := 1 } [0xC3, 0x00, 0x80]
    (fun t => (t.f, t.pc)) = some (0x00, 0x8000) := by decide

/-- R389: `JP NZ,nn`. -/
theorem test_3_7_2_jp_nz_nn : after { boot with f := 0x40 } [0xC2, 0x00, 0x20]
    (fun t => (t.f, t.pc)) = some (0x40, 0x0103) := by decide

/-- R389: `JP PE,nn`. -/
theorem test_3_7_3_jp_pe_nn : after { boot with f := 0x04 } [0xEA, 0x00, 0x20]
    (fun t => (t.f, t.pc)) = some (0x04, 0x2000) := by decide

/-- R390: `JP (HL)`. -/
theorem test_3_7_5_jp_hl : after { boot with h := 0x12, l := 0x34 } [0xE9]
    (fun t => (t.f, t.pc)) = some (0x00, 0x1234) := by decide

/-- R391: `JP (IY)`. -/
theorem test_3_7_6_jp_iy : after { boot with iyh := 0x43, iyl := 0x21 } [0xFD, 0xE9]
    (fun t => (t.f, t.pc)) = some (0x00, 0x4321) := by decide

/-- R392: `JR e`. -/
theorem test_3_7_7_jr_e : after boot [0x18, 0xFE]
    (fun t => (t.f, t.pc)) = some (0x00, 0x0100) := by decide

/-- R392: `JR e`. -/
theorem test_3_7_9_jr_e : after { boot with pc := 0x3FF0 } [0x18, 0x7F]
    (fun t => (t.f, t.pc)) = some (0x00, 0x0071) := by decide

/-- R393: `JR NZ,e`. -/
theorem test_3_7_10_jr_nz_e : after boot [0x20, 0x05]
    (fun t => (t.f, t.pc)) = some (0x00, 0x0107) := by decide

/-- R393: `JR C,e`. -/
theorem test_3_7_12_jr_c_e : after { boot with f := 0x01 } [0x38, 0x80]
    (fun t => (t.f, t.pc)) = some (0x01, 0x0082) := by decide

/-- R394: `DJNZ e`. -/
theorem test_3_7_14_djnz_e : after { boot with b := 0x01 } [0x10, 0xFE]
    (fun t => (t.f, t.b, t.pc)) = some (0x00, 0x00, 0x0102) := by decide

/-- R394: `DJNZ e`. -/
theorem test_3_7_15_djnz_e : after boot [0x10, 0xFE]
    (fun t => (t.f, t.b, t.pc)) = some (0x00, 0xFF, 0x0100) := by decide

/-- R395: `CALL nn`. -/
theorem test_3_7_16_call_nn : after { boot with sp := 0xE000 } [0xCD, 0x00, 0x20]
    (fun t => (t.f, t.sp, t.pc, t.readByte 0xDFFE, t.readByte 0xDFFF)) = some (0x00, 0xDFFE, 0x2000, 0x03, 0x01) := by decide

/-- R396: `CALL Z,nn`. -/
theorem test_3_7_18_call_z_nn : after { boot with pc := 0x0200, sp := 0xDFF0, f := 0x40, page := 1 } [0xCC, 0x50, 0x00]
    (fun t => (t.f, t.sp, t.pc, t.readByte 0xDFEE, t.readByte 0xDFEF)) = some (0x40, 0xDFEE, 0x0050, 0x03, 0x42) := by decide

/-- R396: `CALL NC,nn`. -/
theorem test_3_7_20_call_nc_nn : after { boot with sp := 0x0001 } [0xD4, 0x00, 0x30]
    (fun t => (t.f, t.sp, t.pc, t.readByte 0x0000, t.readByte 0xFFFF)) = some (0x00, 0xFFFF, 0x3000, 0x01, 0x03) := by decide

/-- R397: `RET`. -/
theorem test_3_7_21_ret : after (place { boot with sp := 0xDFEE } [(0xDFEE, 0x03), (0xDFEF, 0x42)]) [0xC9]
    (fun t => (t.f, t.sp, t.pc)) = some (0x00, 0xDFF0, 0x4203) := by decide

/-- R398: `RET C`. -/
theorem test_3_7_23_ret_c : after (place { boot with sp := 0xDFEE } [(0xDFEE, 0x03), (0xDFEF, 0x42)]) [0xD8]
    (fun t => (t.f, t.pc)) = some (0x00, 0x0101) := by decide

/-- R398: `RET PO`. -/
theorem test_3_7_24_ret_po : after (place { boot with sp := 0xDFEE } [(0xDFEE, 0x03), (0xDFEF, 0x42)]) [0xE0]
    (fun t => (t.f, t.sp, t.pc)) = some (0x00, 0xDFF0, 0x4203) := by decide

/-- R399: `RST 38H`. -/
theorem test_3_7_25_rst_38h : after { boot with sp := 0xE000 } [0xFF]
    (fun t => (t.f, t.sp, t.pc, t.readByte 0xDFFE, t.readByte 0xDFFF)) = some (0x00, 0xDFFE, 0x0038, 0x01, 0x01) := by decide

/-- R399: `RST 08H`. -/
theorem test_3_7_26_rst_08h : after { boot with pc := 0x4100, sp := 0xE000, page := 1 } [0xCF]
    (fun t => (t.f, t.sp, t.pc, t.readByte 0xDFFE, t.readByte 0xDFFF)) = some (0x00, 0xDFFE, 0x0008, 0x01, 0x41) := by decide

/-- R410: `PUSH AF`. -/
theorem test_3_7_27_push_af : after { boot with a := 0x12, f := 0x34, sp := 0xE000 } [0xF5]
    (fun t => (t.f, t.sp, t.pc, t.readByte 0xDFFE, t.readByte 0xDFFF)) = some (0x34, 0xDFFE, 0x0101, 0x34, 0x12) := by decide

/-- R410: `PUSH BC`. -/
theorem test_3_7_28_push_bc : after { boot with b := 0xAB, c := 0xCD } [0xC5]
    (fun t => (t.f, t.sp, t.pc, t.readByte 0xFFFE, t.readByte 0xFFFF)) = some (0x00, 0xFFFE, 0x0101, 0xCD, 0xAB) := by decide

/-- R411: `PUSH IX`. -/
theorem test_3_7_29_push_ix : after { boot with ixh := 0x12, ixl := 0x34, sp := 0xE000 } [0xDD, 0xE5]
    (fun t => (t.f, t.sp, t.pc, t.readByte 0xDFFE, t.readByte 0xDFFF)) = some (0x00, 0xDFFE, 0x0102, 0x34, 0x12) := by decide

/-- R412: `POP AF`. -/
theorem test_3_7_30_pop_af : after (place { boot with sp := 0xDFFE } [(0xDFFE, 0xFF), (0xDFFF, 0x00)]) [0xF1]
    (fun t => (t.f, t.sp, t.pc)) = some (0xFF, 0xE000, 0x0101) := by decide

/-- R412: `POP HL`. -/
theorem test_3_7_31_pop_hl : after (place { boot with sp := 0xFFFF } [(0x0000, 0x02), (0xFFFF, 0x01)]) [0xE1]
    (fun t => (t.f, t.h, t.l, t.sp, t.pc)) = some (0x00, 0x02, 0x01, 0x0001, 0x0101) := by decide

/-- R413: `POP IY`. -/
theorem test_3_7_32_pop_iy : after (place { boot with sp := 0xDFFE } [(0xDFFE, 0x78), (0xDFFF, 0x56)]) [0xFD, 0xE1]
    (fun t => (t.f, t.iyh, t.iyl, t.sp, t.pc)) = some (0x00, 0x56, 0x78, 0xE000, 0x0102) := by decide

/-- R414: `EX AF,AF'`. -/
theorem test_3_7_33_ex_af_af : after { boot with a := 0x01, f := 0x02, a' := 0x03, f' := 0x04 } [0x08]
    (fun t => (t.a, t.f, t.a', t.f', t.pc)) = some (0x03, 0x04, 0x01, 0x02, 0x0101) := by decide

/-- R415: `EXX`. -/
theorem test_3_7_34_exx : after { boot with b := 0x11, c := 0x11, d := 0x22, e := 0x22, h := 0x33, l := 0x33, b' := 0x44, c' := 0x44, d' := 0x55, e' := 0x55, h' := 0x66, l' := 0x66 } [0xD9]
    (fun t => (t.f, t.b, t.c, t.d, t.e, t.h, t.l, t.b', t.c', t.d', t.e', t.h', t.l', t.pc)) = some (0x00, 0x44, 0x44, 0x55, 0x55, 0x66, 0x66, 0x11, 0x11, 0x22, 0x22, 0x33, 0x33, 0x0101) := by decide

/-- R416: `EX DE,HL`. -/
theorem test_3_7_35_ex_de_hl : after { boot with d := 0x12, e := 0x34, h := 0x56, l := 0x78 } [0xEB]
    (fun t => (t.f, t.d, t.e, t.h, t.l, t.pc)) = some (0x00, 0x56, 0x78, 0x12, 0x34, 0x0101) := by decide

/-- R417: `EX (SP),HL`. -/
theorem test_3_7_36_ex_sp_hl : after (place { boot with h := 0x12, l := 0x34, sp := 0xDFFE } [(0xDFFE, 0x78), (0xDFFF, 0x56)]) [0xE3]
    (fun t => (t.f, t.h, t.l, t.pc, t.readByte 0xDFFE, t.readByte 0xDFFF)) = some (0x00, 0x56, 0x78, 0x0101, 0x34, 0x12) := by decide

/-- R418: `EX (SP),IY`. -/
theorem test_3_7_37_ex_sp_iy : after (place { boot with iyh := 0xAA, iyl := 0xAA, sp := 0xDFFE } [(0xDFFE, 0x11), (0xDFFF, 0x22)]) [0xFD, 0xE3]
    (fun t => (t.f, t.iyh, t.iyl, t.pc, t.readByte 0xDFFE, t.readByte 0xDFFF)) = some (0x00, 0x22, 0x11, 0x0102, 0xAA, 0xAA) := by decide

/-! ### Table 3.8 of 95_test_vectors.md -/

/-- R426: `NEG`. -/
theorem test_3_8_1_neg : after { boot with a := 0x10 } [0xED, 0x44]
    (fun t => (t.a, t.f, t.pc)) = some (0xF0, 0xA3, 0x0102) := by decide

/-- R427: `DAA`. -/
theorem test_3_8_5_daa : after { boot with a := 0xFA, f := 0x03 } [0x27]
    (fun t => (t.a, t.f, t.pc)) = some (0x94, 0x83, 0x0101) := by decide

/-- R427: `DAA`. -/
theorem test_3_8_6_daa : after { boot with a := 0x0F, f := 0x02 } [0x27]
    (fun t => (t.a, t.f, t.pc)) = some (0x09, 0x0E, 0x0101) := by decide

/-- R428: `CPL`. -/
theorem test_3_8_7_cpl : after { boot with f := 0xC5 } [0x2F]
    (fun t => (t.a, t.f, t.pc)) = some (0xFF, 0xFF, 0x0101) := by decide

/-- R429: `SCF`. -/
theorem test_3_8_8_scf : after { boot with f := 0x12 } [0x37]
    (fun t => (t.pc, t.draws)) = some (0x0101, 1) := by decide

/-- R430: `CCF`. -/
theorem test_3_8_9_ccf : after { boot with f := 0xC5 } [0x3F]
    (fun t => (t.pc, t.draws)) = some (0x0101, 1) := by decide

/-- R431: `NOP`. -/
theorem test_3_8_10_nop : after { boot with pc := 0xFFFF } [0x00]
    (fun t => (t.f, t.pc)) = some (0x00, 0x0000) := by decide

/-- R434: `HALT`. -/
theorem test_3_8_11_halt : after { boot with pc := 0x8100 } [0x76]
    (fun t => (t.f, t.pc)) = some (0x00, 0x0100) := by decide

/-- R434: `HALT`. -/
theorem test_3_8_12_halt : after { boot with pc := 0x0100 } [0x76]
    (fun t => (t.f, t.pc, t.status)) = some (0x00, 0x0100, .final) := by decide

/-! ### Table 3.9 of 95_test_vectors.md -/

/-- R456, with the bytes the refused fetch has read (R455; log entry 19). -/
theorem test_3_9_refusals :
    [[0xDB, 0x10], [0xED, 0xB0], [0xED, 0x6F], [0xED, 0x4C], [0xDD, 0x00], [0xDD, 0xDD, 0x21, 0x00], [0xDD, 0xCB, 0x00, 0x40],
      [0xF3]].map (refusalOf boot)
    = [[0xDB], [0xED, 0xB0], [0xED, 0x6F], [0xED, 0x4C], [0xDD, 0x00], [0xDD, 0xDD], [0xDD, 0xCB, 0x00, 0x40], [0xF3]].map
        (fun bytes => some (.notInBlock 0x0100 bytes)) := by decide

/-- R457: `JR e` in page 4. -/
theorem test_3_9_9_page_out_of_range : faultOf { boot with page := 4 } [0x18, 0x00] = some (.pageOutOfRange 4) := by decide

/-! ## One step: worked by hand from the rules -/

/-- R271 to R274 on the memory forms and the index halves that 95_test_vectors.md leaves out; each row: bytes, `A`, `F`, the byte at
`0xC000`, and `A` and `F` afterwards. `HL`, `IX` and `IY` are `0xC000`. -/
theorem test_hand_alu_memory_forms :
    [([0x86], 0x01, 0x00, 0x7F), ([0xDD, 0x86, 0x00], 0x01, 0x00, 0xFF), ([0xFD, 0x8E, 0x00], 0x0F, 0x01, 0x00),
      ([0x96], 0x00, 0x00, 0x01), ([0xDD, 0x96, 0x00], 0x80, 0x00, 0x01), ([0x9E], 0x05, 0x01, 0x04),
      ([0xFD, 0x9E, 0x00], 0x80, 0x01, 0x00), ([0xDD, 0xA6, 0x00], 0x0F, 0x01, 0xF0), ([0xAE], 0x81, 0x01, 0x80),
      ([0xB6], 0x01, 0xFF, 0x02), ([0xFD, 0xB6, 0x00], 0x00, 0x01, 0x28), ([0xBE], 0x00, 0x00, 0x28),
      (([0xDD, 0xBE, 0x00] : List Byte), (0x10 : Byte), (0x00 : Byte), (0x10 : Byte))].map
      (fun row => after (place { boot with h := 0xC0, ixh := 0xC0, iyh := 0xC0, a := row.2.1, f := row.2.2.1 }
        [(0xC000, row.2.2.2)]) row.1 (fun t => (t.a, t.f)))
    = [some (0x80, 0x94), some (0x00, 0x51), some (0x10, 0x10), some (0xFF, 0xBB), some (0x7F, 0x3E), some (0x00, 0x42),
        some (0x7F, 0x3E), some (0x00, 0x54), some (0x01, 0x00), some (0x03, 0x04), some (0x28, 0x2C), some (0x00, 0xBB),
        some (0x10, 0x42)] := by decide

/-- R271 to R275, R301 to R303 on registers and index halves that 95_test_vectors.md leaves out; each row: bytes, `A`, `F`, the
operand, and `A` and `F` afterwards. The operand is in `B`, `IXH` and `IYL`. -/
theorem test_hand_alu_register_forms :
    [([0x88], 0xFE, 0x01, 0x01), ([0x98], 0x00, 0x01, 0x00), ([0xA0], 0x0F, 0x01, 0xF0), ([0xB8], 0x05, 0x00, 0x05),
      ([0xDD, 0x8C], 0x7E, 0x01, 0x01), ([0xDD, 0x9C], 0x10, 0x01, 0x0F), ([0xFD, 0xAD], 0x55, 0x01, 0x55),
      (([0xFD, 0xBD] : List Byte), (0x00 : Byte), (0x00 : Byte), (0x28 : Byte))].map
      (fun row => after { boot with b := row.2.2.2, ixh := row.2.2.2, iyl := row.2.2.2, a := row.2.1, f := row.2.2.1 } row.1
        (fun t => (t.a, t.f)))
    = [some (0x00, 0x51), some (0xFF, 0xBB), some (0x00, 0x54), some (0x05, 0x42), some (0x80, 0x94), some (0x00, 0x52),
        some (0x00, 0x44), some (0x00, 0xBB)] := by decide

/-- R277: `DEC (HL)` of 0. -/
theorem test_hand_dec_hl : after { boot with h := 0xC0 } [0x35] (fun t => (t.readByte 0xC000, t.f)) = some (0xFF, 0xBA) := by decide

/-- R194 with 41_alu_flags.md R193: `RRCA` of an odd byte and `RLA` that shifts a 1 out. -/
theorem test_hand_accumulator_rotates :
    after { boot with a := 0x01, f := 0xC4 } [0x0F] (fun t => (t.a, t.f)) = some (0x80, 0xC5)
    ∧ after { boot with a := 0x80, f := 0x00 } [0x17] (fun t => (t.a, t.f)) = some (0x00, 0x01) := by decide

/-- The result and `F` of the eight rotates and shifts in the order of `ooo`, of the byte `0x81` with carry 0, by the table of R193. -/
def rotated81 : List (Option (Byte × Byte)) :=
  [some (0x03, 0x05), some (0xC0, 0x85), some (0x02, 0x01), some (0x40, 0x01), some (0x02, 0x01), some (0xC0, 0x85),
    some (0x03, 0x05), some (0x40, 0x01)]

/-- The same of the byte `0x01` with carry 1. -/
def rotated01 : List (Option (Byte × Byte)) :=
  [some (0x02, 0x00), some (0x80, 0x81), some (0x03, 0x04), some (0x80, 0x81), some (0x02, 0x00), some (0x00, 0x45),
    some (0x03, 0x04), some (0x00, 0x45)]

theorem test_hand_rotates_hl :
    ([0x06, 0x0E, 0x16, 0x1E, 0x26, 0x2E, 0x36, 0x3E].map fun op =>
      after (place { boot with h := 0xC0 } [(0xC000, 0x81)]) [0xCB, op] (fun t => (t.readByte 0xC000, t.f))) = rotated81
    ∧ ([0x06, 0x0E, 0x16, 0x1E, 0x26, 0x2E, 0x36, 0x3E].map fun op =>
      after (place { boot with h := 0xC0, f := 0x01 } [(0xC000, 0x01)]) [0xCB, op] (fun t => (t.readByte 0xC000, t.f)))
        = rotated01 := by decide

theorem test_hand_rotates_indexed :
    ([0x06, 0x0E, 0x16, 0x1E, 0x26, 0x2E, 0x36, 0x3E].map fun op =>
      after (place { boot with ixh := 0xC0, ixl := 0x01 } [(0xC000, 0x81)]) [0xDD, 0xCB, 0xFF, op]
        (fun t => (t.readByte 0xC000, t.f))) = rotated81
    ∧ ([0x06, 0x0E, 0x16, 0x1E, 0x26, 0x2E, 0x36, 0x3E].map fun op =>
      after (place { boot with iyh := 0xC0, f := 0x01 } [(0xC07F, 0x01)]) [0xFD, 0xCB, 0x7F, op]
        (fun t => (t.readByte 0xC07F, t.f))) = rotated01 := by decide

/-- The copy goes to the real register `H` (30_encoding.md R111). -/
theorem test_hand_rotates_copy :
    ([0x04, 0x0C, 0x14, 0x1C, 0x24, 0x2C, 0x34, 0x3C].map fun op =>
      after (place { boot with ixh := 0xC0 } [(0xC001, 0x81)]) [0xDD, 0xCB, 0x01, op] (fun t => (t.h, t.f))) = rotated81
    ∧ ([0x04, 0x0C, 0x14, 0x1C, 0x24, 0x2C, 0x34, 0x3C].map fun op =>
      after (place { boot with ixh := 0xC0, f := 0x01 } [(0xC001, 0x01)]) [0xDD, 0xCB, 0x01, op]
        (fun t => (t.readByte 0xC001, t.f))) = rotated01 := by decide

/-- 20_memory.md R78: with `WRITABLE` not containing `0xC000`, vector 4 of table 3.6 is `stuck`. -/
theorem test_hand_store_stuck :
    faultOf { boot with h := 0xC0, params := { boot.params with noWrite := [⟨0xC000, 0xC000⟩] } } [0x72] = some .stuck := by decide

/-- R88: the last step of program P5: the fetch of a written byte. -/
theorem test_hand_self_modifying :
    (match step { boot.launchAt [0x3E, 0x01] with written := [0x0101] } with
      | .fault r => some r
      | .next _ => none
      | .refused _ => none) = some (.selfModifyingCode 0x0100) := by decide

/-! ## The synthesis phase, from the rules -/

/-- 60_exceptions.md R450, R451: `LD AF,nn`, `LD SP,BC`, `ADD BC,DE`, `LD (nn),B` and a mirror into an index half have no encoding: the
call raises and names the family and its descriptors. -/
theorem test_unencodable_calls_raise :
    [Call.ld16 (.pair .af) .imm16, .ldSp (.pair .bc), .add16 (.pair .bc) (.pair .de), .ldWriteMem .direct (.reg .b),
      .indexCb .rlc (.indexed .ix) (some (.reg .iyh))].all (fun c =>
        match buildCall Params.default c with
        | .ok _ => false
        | .error v => v.info == c) = true := by decide

/-- 40_ir_fold.md R170: the trees of `BIT 7,A` and `BIT 0,A` differ in their `Bit` node alone. -/
theorem test_bit_tree_shape :
    bitT .z80 7 (.reg .a) = constant [setReg .f (bitFlagsE .z80 7 (regE .a) true)]
    ∧ bitFlagsE .z80 0 (regE .a) true
      = orE (orE (orE (orE (andE (regE .f) (numLit 0x01)) (numLit 0x10))
          (.conditional (.binary .eq (andE (regE .a) (.bit 0)) (numLit 0)) (numLit 0x44) (numLit 0)))
          (andE (andE (regE .a) (.bit 0)) (numLit 0x80))) (andE (regE .a) (numLit 0x28)) := ⟨rfl, rfl⟩

/-- 40_ir_fold.md R146: a value outside `-2^31 .. 2^31 - 1` is `fault(IRRange)`, met as a literal, as an operand and as a result. -/
theorem test_ir_range :
    [numLit 2147483648, .binary .lt (numLit 2147483648) (numLit 0), shrE (numLit 1) (-40), addE (numLit 2147483647) (.bit 0)].all
      (fun e =>
        match evalExpr e { st := boot, env := TempEnv.empty, jumped := false } with
        | .error (.irRange _) => true
        | _ => false) = true := by decide

/-- R146, R147: `halt &= 0` meets the old value of `halt`, which is out of range; the plain `halt = 0` does not. -/
theorem test_ir_range_old_value :
    (match evalExpr (.assign .band (.identifier (.env .halt)) (numLit 0))
        { st := { boot with halt := 2 ^ 40 }, env := TempEnv.empty, jumped := false } with
      | .error r => decide (r = .irRange (.identifier (.env .halt)))
      | .ok _ => false) = true
    ∧ (match evalExpr (.assign .set (.identifier (.env .halt)) (numLit 0))
        { st := { boot with halt := 2 ^ 40 }, env := TempEnv.empty, jumped := false } with
      | .error _ => false
      | .ok r => decide (r.2.st.halt = 0)) = true := by decide

/-! ## Witnesses: states and operands that meet the hypotheses of the statements -/

/-- `boot` with the addresses `first .. last` neither readable nor writable. -/
def closed (first last : Nat) : State :=
  { boot with params := { boot.params with noRead := [⟨first, last⟩], noWrite := [⟨first, last⟩] } }

theorem test_witness_decodeOfEncode : Instr.wellFormed (.ldRho .iy .a .xl) = true := by decide

theorem test_witness_encodeOfDecode :
    decode 0xDD 0x6C 0x00 0x00 = .ok (.ldRho .ix .xl .xh) ∧ decode 0xFD 0xCB 0xFF 0x27 = .ok (.slaXdR .iy 0xFF .a) := by decide

theorem test_witness_prefixedFamilies :
    (0x40 ≤ (0x40 : Byte).toNat ∧ (0x40 : Byte).toNat % 8 ≠ 6) ∧ (0x40 ≤ (0xFF : Byte).toNat ∧ (0xFF : Byte).toNat % 8 ≠ 6)
    ∧ (∃ op : Byte, op &&& 0xCF ≠ 0x4B ∧ op &&& 0xCF ≠ 0x43 ∧ op &&& 0xCF ≠ 0x4A ∧ op &&& 0xCF ≠ 0x42
      ∧ op ≠ 0x44 ∧ op ≠ 0x47 ∧ op ≠ 0x4F ∧ op ≠ 0x57 ∧ op ≠ 0x5F) :=
  ⟨by decide, by decide, 0xB0, by decide⟩

theorem test_witness_wordStoreThenLoad : boot.canWriteWord 0xFFFF = true ∧ boot.canReadWord 0xFFFF = true := by decide

theorem test_witness_readable_sources :
    (Source8.reg .a).readable (closed 0 65535) = true ∧ (Source8.imm 0xFF).readable (closed 0 65535) = true
    ∧ Source8.mem.readable boot = true ∧ (Source8.idx .iy 0x80).readable boot = true
    ∧ (Source8.half .ix .low).readable (closed 0 65535) = true := by decide

theorem test_witness_inaccessible :
    Source8.mem.readable (closed 0 0) = false ∧ (Source8.idx .ix 0xFF).readable (closed 0xFFFF 0xFFFF) = false
    ∧ ((closed 0 0).canRead (Mem8.hl.address (closed 0 0)) && (closed 0 0).canWrite (Mem8.hl.address (closed 0 0))) = false
    ∧ (Mem8.idx .ix 0x01 = .idx .ix 0x01
      ∧ ((closed 1 1).canRead ((Mem8.idx .ix 0x01).address (closed 1 1))
        && (closed 1 1).canWrite ((Mem8.idx .ix 0x01).address (closed 1 1))) = false)
    ∧ (closed 5 5).canWrite ((ByteStore.absA 5).address (closed 5 5)) = false
    ∧ (closed 0 0).canReadWord 0xFFFF = false ∧ (closed 0 0).canWriteWord 0xFFFF = false := by decide

theorem test_witness_memory_places :
    (boot.canRead (Mem8.hl.address boot) = true ∧ boot.canWrite (Mem8.hl.address boot) = true)
    ∧ (boot.canRead ((Mem8.idx .iy 0x80).address boot) = true ∧ boot.canWrite ((Mem8.idx .iy 0x80).address boot) = true)
    ∧ (boot.canRead (boot.indexed .ix 0x7F) = true ∧ boot.canWrite (boot.indexed .ix 0x7F) = true) := by decide

theorem test_witness_decimalAdjustGivesDecimal :
    isPackedDecimal (State.a { boot with a := 0x99 }) = true ∧ isPackedDecimal 0x01 = true ∧ isPackedDecimal 0x99 = true := by decide

theorem test_witness_rotateAccumulator :
    (RotOp.rlc, Instr.rlca) ∈ [(RotOp.rlc, Instr.rlca), (RotOp.rrc, Instr.rrca), (RotOp.rl, Instr.rla), (RotOp.rr, Instr.rra)]
    ∧ (RotOp.rr, Instr.rra) ∈ [(RotOp.rlc, Instr.rlca), (RotOp.rrc, Instr.rrca), (RotOp.rl, Instr.rla), (RotOp.rr, Instr.rra)] := by
  decide

theorem test_witness_bitTest :
    boot.params.undoc = .z80 ∧ State.reset.params.undoc = .draw
    ∧ (boot.canRead (Mem8.hl.address boot) = true ∧ boot.params.undoc = .z80)
    ∧ (State.reset.canRead (Mem8.hl.address State.reset) = true ∧ State.reset.params.undoc = .draw)
    ∧ (closed 0xFF80 0xFF80).canRead ((Mem8.idx .iy 0x80).address (closed 0xFF80 0xFF80)) = false := by decide

theorem test_witness_byteStores :
    boot.canWrite ((ByteStore.idxImm .iy 0x80 0x01).address boot) = true
    ∧ boot.canWrite ((ByteStore.absA 0xFFFF).address boot) = true := by decide

theorem test_witness_wordLoadsAndStores : boot.canReadWord 0xFFFF = true ∧ boot.canWriteWord 0xFFFF = true := by decide

theorem test_witness_relativeJumps :
    (State.page { boot with page := 3 } < 4 ∧ relCondHolds (State.f { boot with page := 3, f := 0x40 }) .z = true)
    ∧ (State.page { boot with page := 3, b := 0 } < 4 ∧ State.b { boot with page := 3, b := 0 } ≠ 1)
    ∧ relCondHolds (State.f { boot with page := 4 }) .z = false ∧ State.b { boot with page := 4, b := 1 } = 1 := by decide

theorem test_witness_callsAndReturns :
    (State.page { boot with page := 3, sp := 1 } < 4
      ∧ State.canWriteWord { boot with page := 3, sp := 1 } (State.sp { boot with page := 3, sp := 1 } - 2) = true
      ∧ condHolds (State.f { boot with page := 3, sp := 1 }) .nc = true)
    ∧ condHolds (State.f { boot with page := 4 }) .c = false
    ∧ (State.canReadWord { boot with sp := 0xFFFF, f := 0x80 } (State.sp { boot with sp := 0xFFFF, f := 0x80 }) = true
      ∧ condHolds (State.f { boot with sp := 0xFFFF, f := 0x80 }) .m = true) := by decide

theorem test_witness_stackRoundTrips :
    State.page { boot with page := 3, pc := 0xFFFC } < 4
    ∧ (State.pc { boot with page := 3, pc := 0xFFFC } + 3).toNat / 0x4000 = State.page { boot with page := 3, pc := 0xFFFC }
    ∧ State.canWriteWord { boot with page := 3, pc := 0xFFFC } (State.sp { boot with page := 3, pc := 0xFFFC } - 2) = true
    ∧ State.canReadWord { boot with page := 3, pc := 0xFFFC } (State.sp { boot with page := 3, pc := 0xFFFC } - 2) = true := by
  decide

theorem test_witness_rebaseLaws :
    (3 : Nat) < 4 ∧ State.page { boot with page := 3 } < 4 ∧ (0xFFFF : Word).toNat / 0x4000 = State.page { boot with page := 3 } := by
  decide

theorem test_witness_pageOutOfRange :
    4 ≤ State.page { boot with page := 4 } ∧ appliesRebase { boot with page := 4 } .halt = true := by decide

theorem test_witness_pushPopExchange :
    State.canWriteWord { boot with sp := 1 } (State.sp { boot with sp := 1 } - 2) = true
    ∧ State.canReadWord { boot with sp := 0xFFFF } (State.sp { boot with sp := 0xFFFF }) = true
    ∧ State.canWriteWord { boot with sp := 0xFFFF } (State.sp { boot with sp := 0xFFFF }) = true := by decide

theorem test_witness_stackAccessStuck :
    ((closed 0xFFFE 0xFFFE).canWriteWord ((closed 0xFFFE 0xFFFE).sp - 2) = false ∧ (closed 0xFFFE 0xFFFE).page < 4
      ∧ condHolds (closed 0xFFFE 0xFFFE).f .nz = true)
    ∧ ((closed 1 1).canReadWord (closed 1 1).sp = false ∧ condHolds (closed 1 1).f .p = true)
    ∧ ((closed 0 0).canReadWord (closed 0 0).sp && (closed 0 0).canWriteWord (closed 0 0).sp) = false := by decide

/-- A `HALT` at `PC` in the page of `PC`: the state is final. -/
def halted : State := boot.launchAt [0x76]

theorem halted_atFinal : halted.AtFinal := by unfold State.AtFinal; decide

theorem test_witness_haltAndFinalStates :
    (State.page { boot with page := 3 } < 4 ∧ rebase (State.page { boot with page := 3 }) 0x0100 ≠ 0x0100)
    ∧ (boot.page < 4 ∧ rebase boot.page boot.pc = boot.pc ∧ boot.status = .running)
    ∧ halted.AtFinal ∧ (∃ t, step halted = .next t) :=
  ⟨by decide, by decide, halted_atFinal, _, rfl⟩

theorem test_witness_stepRunsDecodedInstruction :
    halted.status = .running
    ∧ decode (halted.readByte halted.pc) (halted.readByte (halted.pc + 1)) (halted.readByte (halted.pc + 2))
        (halted.readByte (halted.pc + 3)) = .ok .halt
    ∧ (∀ k : Nat, k < Instr.length .halt → (halted.pc + BitVec.ofNat 16 k).toNat ∉ halted.written) :=
  ⟨by decide, by decide, fun _ _ => List.not_mem_nil⟩

/-- Bytes that are refused: `IN A,(10H)`. -/
def atIn : State := boot.launchAt [0xDB, 0x10]

/-- A `NOP` in a byte that the run has written, at the top of memory. -/
def atWritten : State := { boot with pc := 0xFFFF, written := [0xFFFF] }

/-- A load from an address outside `READABLE`: the step is `stuck`. -/
def atStuck : State := (closed 0x4000 0x4000).launchAt [0x3A, 0x00, 0x40]

theorem test_witness_orderOfOutcomes_clauses :
    (atIn.status = .running
      ∧ decode (atIn.readByte atIn.pc) (atIn.readByte (atIn.pc + 1)) (atIn.readByte (atIn.pc + 2)) (atIn.readByte (atIn.pc + 3))
        = .error .notInBlock)
    ∧ (atWritten.status = .running
      ∧ decode (atWritten.readByte atWritten.pc) (atWritten.readByte (atWritten.pc + 1)) (atWritten.readByte (atWritten.pc + 2))
          (atWritten.readByte (atWritten.pc + 3)) = .ok .nop
      ∧ 0 < Instr.length .nop ∧ (atWritten.pc + BitVec.ofNat 16 0).toNat ∈ atWritten.written ∧ ¬ atWritten.AtFinal)
    ∧ State.status { boot with status := .final } ≠ .running :=
  ⟨by decide, ⟨by decide, by decide, by decide, by decide, by unfold State.AtFinal; decide⟩, by decide⟩

theorem test_witness_orderOfOutcomes_stops :
    step atIn = .refused (.notInBlock 0x0100 [0xDB]) ∧ step atWritten = .fault (.selfModifyingCode 0xFFFF)
    ∧ (Fault.selfModifyingCode 0xFFFF ≠ .stuck) ∧ step atStuck = .fault .stuck :=
  ⟨rfl, rfl, by decide, rfl⟩

theorem test_witness_everyInstructionCompletes :
    State.reset.allAccessible ∧ State.PageInRange { State.reset with page := 3 } :=
  ⟨⟨rfl, rfl⟩, by unfold State.PageInRange; decide⟩

theorem test_witness_inv_step : State.reset.Inv ∧ (∃ t, step State.reset = .next t) :=
  ⟨⟨rfl, rfl⟩, _, rfl⟩

theorem test_witness_registerWriters :
    (∃ t, exec .ldIA { boot with a := 1 } = .next t ∧ t.i ≠ boot.i)
    ∧ (∃ t, exec .ldRefreshA { boot with a := 1 } = .next t ∧ t.r ≠ boot.r)
    ∧ (∃ t, exec (.incSs .sp) boot = .next t ∧ t.sp ≠ boot.sp)
    ∧ (∃ t, exec (.ldXhN .ix .low 1) boot = .next t ∧ ¬(t.ixh = boot.ixh ∧ t.ixl = boot.ixl))
    ∧ (∃ t, exec (.incXy .iy) boot = .next t ∧ ¬(t.iyh = boot.iyh ∧ t.iyl = boot.iyl)) :=
  ⟨⟨_, rfl, by decide⟩, ⟨_, rfl, by decide⟩, ⟨_, rfl, by decide⟩, ⟨_, rfl, by decide⟩, ⟨_, rfl, by decide⟩⟩

theorem test_witness_flagsUnchanged : (∃ t, exec (.popQq .bc) boot = .next t) ∧ writesFlags (.popQq .bc) = false :=
  ⟨⟨_, rfl⟩, by decide⟩

theorem test_witness_memoryWriters :
    ((∃ t, exec .ret boot = .next t) ∧ writesMemory .ret = false)
    ∧ (∃ t, exec (.ldAbsA 0xFFFF) { boot with a := 1, written := [0] } = .next t ∧ t.readByte 0xFFFF ≠ boot.readByte 0xFFFF)
    ∧ 0 ∈ State.written { boot with a := 1, written := [0] } :=
  ⟨⟨⟨_, rfl⟩, by decide⟩, ⟨_, rfl, by decide⟩, by decide⟩

theorem test_witness_shadowSetIsolated : reachesShadow .exDeHl = false ∧ sameButShadow boot { boot with a' := 0x5A, h' := 0xFF } :=
  ⟨by decide, rfl⟩

theorem test_witness_foldLaws :
    ∀ x y : Int, Expr.register .a ≠ .binary .shr (.literal (.num x)) (.literal (.num y))
      ∧ Expr.register .a ≠ .binary .band (.literal (.num x)) (.literal (.num y)) :=
  fun _ _ => ⟨nofun, nofun⟩

/-- A context without temporaries. -/
def plain : Ctx := { st := boot, env := TempEnv.empty, jumped := false }

/-- Boundary values for the operators, the range and the shift counts. -/
theorem test_witness_irEvaluation_operators :
    evalExpr (numLit 2147483647) plain = .ok (.num 2147483647, plain) ∧ evalExpr (numLit 31) plain = .ok (.num 31, plain)
    ∧ evalExpr (numLit (-2147483648)) plain = .ok (.num (-2147483648), plain)
    ∧ ((0 : Int) ≤ 2147483647 ∧ (0 : Int) < 31 ∧ (31 : Int) = (31 : Nat))
    ∧ (fold (.binary .add (tmpE .temp) (numLit 1)) = .binary .add (tmpE .temp) (numLit 1)
      ∧ evalExpr (tmpE .temp) plain = .error (.irUnbound (tmpE .temp)))
    ∧ (fold (.binary .add (numLit 1) (tmpE .temp)) = .binary .add (numLit 1) (tmpE .temp)
      ∧ evalExpr (numLit 1) plain = .ok (.num 1, plain)) :=
  ⟨rfl, rfl, rfl, by decide, ⟨rfl, rfl⟩, rfl, rfl⟩

theorem test_witness_irEvaluation_statements :
    evalExpr (.literal (.bool false)) plain = .ok (.bool false, plain) ∧ evalExpr (.literal (.bool true)) plain = .ok (.bool true, plain)
    ∧ plain.env.get .location = none
    ∧ runStmt (.ret none) plain = .ok (true, plain) ∧ runStmt (.block .nil) plain = .ok (false, plain)
    ∧ evalExpr (tmpE .val) plain = .error (.irUnbound (tmpE .val)) :=
  ⟨rfl, rfl, rfl, rfl, rfl, rfl⟩

theorem test_witness_irEvaluation_writes :
    (Target.limit (.register .iyl) = some 255 ∧ evalExpr (numLit 255) plain = .ok (.num 255, plain)
      ∧ 0 ≤ assignedNum .set 0 255 ∧ assignedNum .set 0 255 ≤ 255)
    ∧ ¬(0 ≤ assignedNum .add 1 255 ∧ assignedNum .add 1 255 ≤ 255) ∧ ¬(0 ≤ assignedNum .sub 0 255 ∧ assignedNum .sub 0 255 ≤ 255)
    ∧ (Target.limit (.identifier (.env .pc)) = some 65535 ∧ evalExpr (numLit 65535) plain = .ok (.num 65535, plain)
      ∧ ¬(0 ≤ assignedNum .add 1 65535 ∧ assignedNum .add 1 65535 ≤ 65535))
    ∧ (Target.limit (.register .iff2) = some 1 ∧ evalExpr (numLit 1) plain = .ok (.num 1, plain)
      ∧ 0 ≤ assignedNum .bxor 1 1 ∧ assignedNum .bxor 1 1 ≤ 1) :=
  ⟨⟨rfl, rfl, by decide⟩, by decide, by decide, ⟨rfl, rfl, by decide⟩, rfl, rfl, by decide⟩

theorem test_witness_set16Folds :
    (∀ w : Value, callE (.getPair .hl) [] ≠ .literal w)
    ∧ evalExpr (callE (.getPair .hl) []) { st := { boot with h := 0xFF, l := 0xFE }, env := TempEnv.empty, jumped := false }
      = .ok (wordValue 0xFFFE, { st := { boot with h := 0xFF, l := 0xFE }, env := TempEnv.empty, jumped := false }) :=
  ⟨fun _ => nofun, rfl⟩

/-- `LD AF,nn`: a shape that no row has. -/
theorem test_witness_tableIsBuilt_unencodable :
    ∀ i : Instr, i.wellFormed = true → callOf i ≠ .ld16 (.pair .af) .imm16 := by
  intro i _ h
  cases i
  case ldDdNn p _ _ => cases p <;> cases h
  case ldXyNn x _ _ => cases x <;> cases h
  all_goals first | cases h | (rename_i p _ _; cases p <;> cases h)

theorem test_witness_tableIsBuilt :
    Instr.wellFormed (.callCc .m 0xFFFF) = true ∧ ∃ fr, fragmentOf boot (.callCc .m 0xFFFF) = .ok (some fr) :=
  ⟨rfl, _, fragmentOf_eq rfl rfl⟩

theorem test_witness_templateDenotesEffect :
    (Instr.wellFormed .nop = true ∧ ¬(Instr.nop = .halt ∧ boot.status = .running ∧ boot.page < 4 ∧ rebase boot.page boot.pc = boot.pc))
    ∧ (Instr.wellFormed .halt = true ∧ ¬(Instr.halt = .halt ∧ boot.status = .running ∧ 3 < 4 ∧ rebase 3 boot.pc = boot.pc))
    ∧ boot.page < 4 ∧ rebase boot.page boot.pc = boot.pc := by decide

theorem test_witness_haltSpeedup :
    (∃ fr, fragmentOf { boot with params := { boot.params with haltSpeedup := true } } .halt = .ok (some fr))
    ∧ (∃ gr, fragmentOf { boot with params := { boot.params with haltSpeedup := false } } .halt = .ok (some gr)) :=
  ⟨⟨_, fragmentOf_eq rfl rfl⟩, ⟨_, fragmentOf_eq rfl rfl⟩⟩

end Sys2Proof.Tests
end

/-! The register file (10_state.md R32, R33, R37, R38): each register view read after a write of the same view, and the frame of
each write. The views of single bytes are `State.reg8_setReg8` and `State.half_setHalf` of the laws. -/

namespace Sys2Proof.Machine

theorem State.index_setIndex (s : State) (x y : IndexReg) (v : Word) :
    (s.setIndex x v).index y = if y = x then v else s.index y := by
  cases x <;> cases y <;> simp [State.index, State.setIndex, State.half_setHalf]

theorem State.pair_setPair (s : State) (p q : RegPair) (v : Word) :
    (s.setPair p v).pair q = if q = p then v else s.pair q := by
  cases p <;> cases q <;> simp [State.pair, State.setPair, State.bc, State.de, State.hl]

theorem State.stackPair_setStackPair (s : State) (p q : StackPair) (v : Word) :
    (s.setStackPair p v).stackPair q = if q = p then v else s.stackPair q := by
  cases p <;> cases q <;> simp [State.stackPair, State.setStackPair, State.bc, State.de, State.hl, State.af]

theorem State.rho_setRho (s : State) (x : IndexReg) (t q : Rho) (v : Byte) :
    (s.setRho x t v).rho x q = if q = t then v else s.rho x q := by
  cases x <;> cases t <;> cases q <;> rfl

theorem State.onlyReg8s_setReg8 (s : State) (r : Reg8) (v : Byte) : OnlyReg8s s (s.setReg8 r v) := by
  cases r <;> rfl

theorem State.onlyHalves_setHalf (s : State) (x : IndexReg) (u : IndexHalf) (v : Byte) : OnlyHalves s (s.setHalf x u v) := by
  cases x <;> cases u <;> rfl

theorem State.onlyHalves_setIndex (s : State) (x : IndexReg) (v : Word) : OnlyHalves s (s.setIndex x v) := by
  cases x <;> rfl

theorem State.onlyRhos_setRho (s : State) (x : IndexReg) (t : Rho) (v : Byte) : OnlyRhos s (s.setRho x t v) := by
  cases t <;> cases x <;> rfl

theorem State.onlyPairs_setPair (s : State) (p : RegPair) (v : Word) : OnlyPairs s (s.setPair p v) := by
  cases p <;> rfl

theorem State.onlyStackPairs_setStackPair (s : State) (p : StackPair) (v : Word) : OnlyStackPairs s (s.setStackPair p v) := by
  cases p <;> rfl

/-- Settles O6: the views one by one, the frame of each write, and the halves that a pair's write reaches. -/
theorem registerFile : Obligations.RegisterFile := by
  unfold Obligations.RegisterFile
  exact ⟨State.reg8_setReg8, State.half_setHalf, State.pair_setPair, State.stackPair_setStackPair, State.index_setIndex,
    State.rho_setRho,
    fun s r p q x u t v w =>
      ⟨s.onlyReg8s_setReg8 r v, s.onlyHalves_setHalf x u v, s.onlyHalves_setIndex x w, s.onlyRhos_setRho x t v,
        s.onlyPairs_setPair p w, s.onlyStackPairs_setStackPair q w⟩,
    fun _ _ => ⟨rfl, rfl, rfl, rfl, rfl, rfl, rfl, rfl⟩⟩

end Sys2Proof.Machine

/-! The step (10_state.md R50): what a step of a running state is, and what a step that answers a next state has executed. -/

namespace Sys2Proof.Machine

theorem step_of_running {s : State} (h : s.status = .running) : step s = runningStep s := by
  simp [step, stepState, h]

theorem State.decodeAt_eq (s : State) :
    s.decodeAt = decode (s.readByte s.pc) (s.readByte (s.pc + 1)) (s.readByte (s.pc + 2)) (s.readByte (s.pc + 3)) := by
  simp [State.decodeAt, State.fetchByte]

theorem State.fetchesWritten_eq_false (s : State) (len : Nat) :
    s.fetchesWritten len = false ↔ ∀ k < len, (s.pc + BitVec.ofNat 16 k).toNat ∉ s.written := by
  simp [State.fetchesWritten]

theorem runningStep_of_decodeAt {s : State} {i : Instr} (hd : s.decodeAt = .ok i) :
    runningStep s =
      if s.fetchesWritten i.length && !s.isFinal then .fault (.selfModifyingCode s.pc) else exec i s := by
  simp [runningStep, hd]

/-- Settles O43: none of the bytes is written, so the fetch does not fault and the step is the instruction. -/
theorem stepRunsDecodedInstruction : Obligations.StepRunsDecodedInstruction := by
  unfold Obligations.StepRunsDecodedInstruction
  intro s i hrun hdec hclean
  have hfetch : s.fetchesWritten i.length = false := (s.fetchesWritten_eq_false i.length).2 hclean
  rw [step_of_running hrun, runningStep_of_decodeAt (s.decodeAt_eq.trans hdec), hfetch]
  simp

/-- A step that answers a next state has run the decoded instruction of a running state. -/
theorem step_next {s t : State} (h : step s = .next t) :
    s.status = .running ∧ ∃ i, s.decodeAt = .ok i ∧ exec i s = .next t := by
  cases hst : s.status with
  | running =>
    rw [step_of_running hst] at h
    cases hd : s.decodeAt with
    | error e => cases e; simp [runningStep, hd] at h
    | ok i =>
      rw [runningStep_of_decodeAt hd] at h
      split at h
      · cases h
      · exact ⟨rfl, i, rfl, h⟩
  | final => simp [step, stepState, hst] at h
  | refused r => simp [step, stepState, hst] at h
  | faulted r => simp [step, stepState, hst] at h

end Sys2Proof.Machine

/-! What one instruction can do to the state (10_state.md R35, R36, R47; 20_memory.md R75), said once for all 157.
`Changes` lists the updates that an instruction may make. The instructions that do not reach the shadow set are followed in two
runs at once, from two states that differ only there: one case split then gives both the updates and that the runs stay together. -/

namespace Sys2Proof.Machine

/-- `t` comes from `s` by updates that `i` may make, at most `n` of them draws. -/
inductive Changes (i : Instr) (s : State) : Nat → State → Prop where
  | start {n : Nat} : Changes i s n s
  | setReg8 {n : Nat} {t : State} (r : Reg8) (v : Byte) : Changes i s n t → Changes i s n (t.setReg8 r v)
  | setPc {n : Nat} {t : State} (w : Word) : Changes i s n t → Changes i s n { t with pc := w }
  | draw {n : Nat} {t : State} : Changes i s n t → Changes i s (n + 1) t.afterDraw
  | setHalf {n : Nat} {t : State} {x : IndexReg} (q : IndexHalf) (v : Byte) (hx : writesIndex i = some x) :
      Changes i s n t → Changes i s n (t.setHalf x q v)
  | setSp {n : Nat} {t : State} (w : Word) (hsp : writesSp i = true) : Changes i s n t → Changes i s n { t with sp := w }
  | setF {n : Nat} {t : State} (v : Byte) (hf : writesFlags i = true) : Changes i s n t → Changes i s n { t with f := v }
  | writeByte {n : Nat} {t : State} (a : Word) (v : Byte) (hm : writesMemory i = true) :
      Changes i s n t → Changes i s n (t.writeByte a v)
  | setI {n : Nat} {t : State} (v : Byte) (hi : i = .ldIA) : Changes i s n t → Changes i s n { t with i := v }
  | setR {n : Nat} {t : State} (v : Byte) (hr : i = .ldRefreshA) : Changes i s n t → Changes i s n { t with r := v }
  | setShadow {n : Nat} {t : State} (a f b c d e h l : Byte) (hs : reachesShadow i = true) :
      Changes i s n t → Changes i s n { t with a' := a, f' := f, b' := b, c' := c, d' := d, e' := e, h' := h, l' := l }
  | markFinal {n : Nat} {t : State} (hh : i = .halt) : Changes i s n t → Changes i s n { t with status := .final }

/-- The number of draws is a bound. -/
theorem Changes.succ {i : Instr} {s t : State} {n : Nat} (h : Changes i s n t) : Changes i s (n + 1) t := by
  induction h with
  | start => exact .start
  | setReg8 r v _ ih => exact ih.setReg8 r v
  | setPc w _ ih => exact ih.setPc w
  | draw _ ih => exact ih.draw
  | setHalf q v hx _ ih => exact ih.setHalf q v hx
  | setSp w hsp _ ih => exact ih.setSp w hsp
  | setF v hf _ ih => exact ih.setF v hf
  | writeByte a v hm _ ih => exact ih.writeByte a v hm
  | setI v hi _ ih => exact ih.setI v hi
  | setR v hr _ ih => exact ih.setR v hr
  | setShadow a f b c d e h l hs _ ih => exact ih.setShadow a f b c d e h l hs
  | markFinal hh _ ih => exact ih.markFinal hh

/-- `s` with the shadow set of `u`. -/
def State.withShadow (s u : State) : State :=
  { s with a' := u.a', f' := u.f', b' := u.b', c' := u.c', d' := u.d', e' := u.e', h' := u.h', l' := u.l' }

@[simp] theorem State.withShadow_params (s u : State) : (s.withShadow u).params = s.params := rfl

/-- Two runs of `i` side by side, from `s` and from `s` with the shadow set of `u`: the first has made updates that `i` may make,
and the second differs from it in the shadow set alone, where it has kept that of `u`. -/
structure Paired (i : Instr) (s u : State) (n : Nat) (t t' : State) : Prop where
  changes : Changes i s n t
  shadow : t' = t.withShadow u

namespace Paired

variable {i : Instr} {s u t t' : State} {n : Nat}

/-! ## The updates -/

theorem start : Paired i s u n s (s.withShadow u) := ⟨.start, rfl⟩

theorem setReg8 (h : Paired i s u n t t') (r : Reg8) (v : Byte) : Paired i s u n (t.setReg8 r v) (t'.setReg8 r v) := by
  obtain ⟨h, rfl⟩ := h
  exact ⟨h.setReg8 r v, by cases r <;> rfl⟩

theorem setPc (h : Paired i s u n t t') (w : Word) : Paired i s u n { t with pc := w } { t' with pc := w } := by
  obtain ⟨h, rfl⟩ := h
  exact ⟨h.setPc w, rfl⟩

theorem draw (h : Paired i s u n t t') : Paired i s u (n + 1) t.afterDraw t'.afterDraw := by
  obtain ⟨h, rfl⟩ := h
  exact ⟨h.draw, rfl⟩

theorem setHalf (h : Paired i s u n t t') {x : IndexReg} (q : IndexHalf) (v : Byte) (hx : writesIndex i = some x) :
    Paired i s u n (t.setHalf x q v) (t'.setHalf x q v) := by
  obtain ⟨h, rfl⟩ := h
  exact ⟨h.setHalf q v hx, by cases x <;> cases q <;> rfl⟩

theorem setSp (h : Paired i s u n t t') (w : Word) (hsp : writesSp i = true) :
    Paired i s u n { t with sp := w } { t' with sp := w } := by
  obtain ⟨h, rfl⟩ := h
  exact ⟨h.setSp w hsp, rfl⟩

theorem setF (h : Paired i s u n t t') (v : Byte) (hf : writesFlags i = true) :
    Paired i s u n { t with f := v } { t' with f := v } := by
  obtain ⟨h, rfl⟩ := h
  exact ⟨h.setF v hf, rfl⟩

theorem writeByte (h : Paired i s u n t t') (a : Word) (v : Byte) (hm : writesMemory i = true) :
    Paired i s u n (t.writeByte a v) (t'.writeByte a v) := by
  obtain ⟨h, rfl⟩ := h
  exact ⟨h.writeByte a v hm, rfl⟩

theorem setI (h : Paired i s u n t t') (v : Byte) (hi : i = .ldIA) : Paired i s u n { t with i := v } { t' with i := v } := by
  obtain ⟨h, rfl⟩ := h
  exact ⟨h.setI v hi, rfl⟩

theorem setR (h : Paired i s u n t t') (v : Byte) (hr : i = .ldRefreshA) :
    Paired i s u n { t with r := v } { t' with r := v } := by
  obtain ⟨h, rfl⟩ := h
  exact ⟨h.setR v hr, rfl⟩

theorem markFinal (h : Paired i s u n t t') (hh : i = .halt) :
    Paired i s u n { t with status := .final } { t' with status := .final } := by
  obtain ⟨h, rfl⟩ := h
  exact ⟨h.markFinal hh, rfl⟩

/-! ## The updates that several instructions share -/

theorem setBc (h : Paired i s u n t t') (v : Word) : Paired i s u n (t.setBc v) (t'.setBc v) :=
  (h.setReg8 .b (hi v)).setReg8 .c (lo v)

theorem setDe (h : Paired i s u n t t') (v : Word) : Paired i s u n (t.setDe v) (t'.setDe v) :=
  (h.setReg8 .d (hi v)).setReg8 .e (lo v)

theorem setHl (h : Paired i s u n t t') (v : Word) : Paired i s u n (t.setHl v) (t'.setHl v) :=
  (h.setReg8 .h (hi v)).setReg8 .l (lo v)

theorem setPair (h : Paired i s u n t t') (p : RegPair) (v : Word) (hp : p = .sp → writesSp i = true) :
    Paired i s u n (t.setPair p v) (t'.setPair p v) := by
  cases p with
  | bc => exact h.setBc v
  | de => exact h.setDe v
  | hl => exact h.setHl v
  | sp => exact h.setSp v (hp rfl)

theorem setStackPair (h : Paired i s u n t t') (p : StackPair) (v : Word) (hp : p = .af → writesFlags i = true) :
    Paired i s u n (t.setStackPair p v) (t'.setStackPair p v) := by
  cases p with
  | bc => exact h.setBc v
  | de => exact h.setDe v
  | hl => exact h.setHl v
  | af => exact (h.setReg8 .a (hi v)).setF (lo v) (hp rfl)

theorem setIndex (h : Paired i s u n t t') {x : IndexReg} (v : Word) (hx : writesIndex i = some x) :
    Paired i s u n (t.setIndex x v) (t'.setIndex x v) :=
  (h.setHalf .high (hi v) hx).setHalf .low (lo v) hx

theorem setRho (h : Paired i s u n t t') {x : IndexReg} (q : Rho) (v : Byte) (hx : q.isHalf = true → writesIndex i = some x) :
    Paired i s u n (t.setRho x q v) (t'.setRho x q v) := by
  cases q with
  | b => exact h.setReg8 .b v
  | c => exact h.setReg8 .c v
  | d => exact h.setReg8 .d v
  | e => exact h.setReg8 .e v
  | xh => exact h.setHalf .high v (hx rfl)
  | xl => exact h.setHalf .low v (hx rfl)
  | a => exact h.setReg8 .a v

theorem setFlagsDrawn (h : Paired i s u n t t') (base mask : Byte) (hf : writesFlags i = true) :
    Paired i s u (n + 1) (t.setFlagsDrawn base mask) (t'.setFlagsDrawn base mask) := by
  obtain ⟨h, rfl⟩ := h
  exact ⟨(h.setF (base ||| (t.drawn &&& mask)) hf).draw, rfl⟩

/-- Bits 5 and 3 are copied or drawn (41_alu_flags.md R180): at most one draw. -/
theorem setFlags (h : Paired i s u n t t') (base src : Byte) (hf : writesFlags i = true) :
    Paired i s u (n + 1) (t.setFlags base src) (t'.setFlags base src) := by
  obtain ⟨h, rfl⟩ := h
  unfold State.setFlags
  rw [State.withShadow_params]
  split
  · exact ⟨(h.setF (base ||| t.xyBits src) hf).succ, rfl⟩
  · exact ⟨(h.setF (base ||| t.xyBits src) hf).draw, rfl⟩

theorem setAccFlags (h : Paired i s u n t t') (r f src : Byte) (hf : writesFlags i = true) :
    Paired i s u (n + 1) (t.setAccFlags r f src) (t'.setAccFlags r f src) :=
  (h.setReg8 .a r).setFlags f src hf

theorem bitReg (h : Paired i s u n t t') (b : Fin 8) (v : Byte) (hf : writesFlags i = true) :
    Paired i s u (n + 1) (t.bitReg b v) (t'.bitReg b v) := by
  obtain ⟨h, rfl⟩ := h
  unfold State.bitReg
  rw [State.withShadow_params]
  split
  · exact ⟨(h.setF _ hf).succ, rfl⟩
  · exact setFlagsDrawn ⟨h, rfl⟩ _ _ hf

theorem bitMem (h : Paired i s u n t t') (b : Fin 8) (v : Byte) (hf : writesFlags i = true) :
    Paired i s u (n + 1) (t.bitMem b v) (t'.bitMem b v) := by
  obtain ⟨h, rfl⟩ := h
  unfold State.bitMem
  rw [State.withShadow_params]
  split <;> exact setFlagsDrawn ⟨h, rfl⟩ _ _ hf

end Paired

/-- The two runs end alike: paired next states, the same fault, or the same refusal. -/
def PairedEnds (i : Instr) (s u : State) (n : Nat) : Outcome State → Outcome State → Prop
  | .next t, .next t' => Paired i s u n t t'
  | .fault r, .fault r' => r' = r
  | .refused r, .refused r' => r' = r
  | _, _ => False

namespace PairedEnds

variable {i : Instr} {s u : State} {n : Nat} {o o' : Outcome State}

theorem of_next {t : State} (h : PairedEnds i s u n (.next t) o') : ∃ t', o' = .next t' ∧ Paired i s u n t t' := by
  cases o' with
  | next t' => exact ⟨t', rfl, h⟩
  | fault r => exact h.elim
  | refused r => exact h.elim

theorem of_fault {r : Fault} (h : PairedEnds i s u n (.fault r) o') : o' = .fault r := by
  cases o' with
  | next t' => exact h.elim
  | fault r' => exact congrArg _ h
  | refused r' => exact h.elim

theorem of_refused {r : Refusal} (h : PairedEnds i s u n (.refused r) o') : o' = .refused r := by
  cases o' with
  | next t' => exact h.elim
  | fault r' => exact h.elim
  | refused r' => exact congrArg _ h

theorem ite {c : Prop} [Decidable c] {p p' : Outcome State} (ho : PairedEnds i s u n o o') (hp : PairedEnds i s u n p p') :
    PairedEnds i s u n (if c then o else p) (if c then o' else p') := by
  split
  · exact ho
  · exact hp

end PairedEnds

/-! ## The shared operations -/

namespace Paired

variable {i : Instr} {s u t t' : State} {n : Nat}

theorem fallThrough (h : Paired i s u n t t') (len : Nat) : PairedEnds i s u n (fallThrough t len) (fallThrough t' len) := by
  obtain ⟨h, rfl⟩ := h
  exact setPc ⟨h, rfl⟩ _

theorem jump (h : Paired i s u n t t') (w : Word) : PairedEnds i s u n (jump t w) (jump t' w) := h.setPc w

theorem withRebase (h : Paired i s u n t t') {x : Word} {k k' : Word → Outcome State}
    (hk : ∀ w, PairedEnds i s u n (k w) (k' w)) : PairedEnds i s u n (withRebase t x k) (withRebase t' x k') := by
  obtain ⟨-, rfl⟩ := h
  exact .ite (hk _) rfl

theorem loadByte (h : Paired i s u n t t') {a : Word} {k k' : Byte → Outcome State}
    (hk : ∀ v, PairedEnds i s u n (k v) (k' v)) : PairedEnds i s u n (loadByte t a k) (loadByte t' a k') := by
  obtain ⟨-, rfl⟩ := h
  exact .ite (hk _) rfl

theorem storeByte (h : Paired i s u n t t') {a : Word} {v : Byte} {k k' : State → Outcome State} (hm : writesMemory i = true)
    (hk : ∀ p p', Paired i s u n p p' → PairedEnds i s u n (k p) (k' p')) :
    PairedEnds i s u n (storeByte t a v k) (storeByte t' a v k') := by
  obtain ⟨h, rfl⟩ := h
  exact .ite (hk _ _ (writeByte ⟨h, rfl⟩ a v hm)) rfl

theorem loadWord (h : Paired i s u n t t') {a : Word} {k k' : Word → Outcome State}
    (hk : ∀ v, PairedEnds i s u n (k v) (k' v)) : PairedEnds i s u n (loadWord t a k) (loadWord t' a k') :=
  h.loadByte fun _ => h.loadByte fun _ => hk _

theorem storeWord (h : Paired i s u n t t') {a v : Word} {k k' : State → Outcome State} (hm : writesMemory i = true)
    (hk : ∀ p p', Paired i s u n p p' → PairedEnds i s u n (k p) (k' p')) :
    PairedEnds i s u n (storeWord t a v k) (storeWord t' a v k') :=
  h.storeByte hm fun _ _ hp => hp.storeByte hm hk

/-- `g` gives both runs the same byte, and states that are paired again. -/
theorem modifyByte (h : Paired i s u n t t') {a : Word} {g : State → Byte → Byte × State}
    {k k' : Byte → State → Outcome State}
    (hm : writesMemory i = true) (hg : ∀ v, (g t' v).1 = (g t v).1 ∧ Paired i s u n (g t v).2 (g t' v).2)
    (hk : ∀ v p p', Paired i s u n p p' → PairedEnds i s u n (k v p) (k' v p')) :
    PairedEnds i s u n (modifyByte t a g k) (modifyByte t' a g k') := by
  refine h.loadByte fun v => ?_
  obtain ⟨hv, hp⟩ := hg v
  rw [hv]
  exact hp.storeByte hm (hk _)

theorem push16 (h : Paired i s u n t t') {v : Word} {k k' : State → Outcome State} (hm : writesMemory i = true)
    (hsp : writesSp i = true) (hk : ∀ p p', Paired i s u n p p' → PairedEnds i s u n (k p) (k' p')) :
    PairedEnds i s u n (push16 t v k) (push16 t' v k') := by
  obtain ⟨h, rfl⟩ := h
  refine (setSp ⟨h, rfl⟩ _ hsp).storeByte hm fun p p' hp => ?_
  obtain ⟨hp, rfl⟩ := hp
  exact (setSp ⟨hp, rfl⟩ _ hsp).storeByte hm hk

theorem pop16 (h : Paired i s u n t t') {k k' : Word → State → Outcome State} (hsp : writesSp i = true)
    (hk : ∀ v p p', Paired i s u n p p' → PairedEnds i s u n (k v p) (k' v p')) :
    PairedEnds i s u n (pop16 t k) (pop16 t' k') := by
  obtain ⟨h, rfl⟩ := h
  exact loadWord ⟨h, rfl⟩ fun v => hk v _ _ (setSp ⟨h, rfl⟩ _ hsp)

theorem callTo (h : Paired i s u n t t') (len : Nat) (target : Word) (hm : writesMemory i = true)
    (hsp : writesSp i = true) : PairedEnds i s u n (callTo t len target) (callTo t' len target) := by
  obtain ⟨h, rfl⟩ := h
  exact withRebase ⟨h, rfl⟩ fun _ => push16 ⟨h, rfl⟩ hm hsp fun _ _ hp => hp.jump target

theorem exchangeTop (h : Paired i s u n t t') {v : Word} {k k' : Word → State → Outcome State} (hm : writesMemory i = true)
    (hk : ∀ v p p', Paired i s u n p p' → PairedEnds i s u n (k v p) (k' v p')) :
    PairedEnds i s u n (exchangeTop t v k) (exchangeTop t' v k') := by
  obtain ⟨h, rfl⟩ := h
  exact loadWord ⟨h, rfl⟩ fun v => storeWord ⟨h, rfl⟩ hm (hk v)

end Paired

/-! ## Every instruction -/

/-- One case for each shape of instruction: the updates of the pair of states, in the order in which the instruction makes them. -/
theorem exec_paired (i : Instr) (s u : State) (hi : reachesShadow i = false) :
    PairedEnds i s u 2 (exec i s) (exec i (s.withShadow u)) := by
  have start : ∀ {n}, Paired i s u n s (s.withShadow u) := .start
  cases i <;> dsimp only [exec]
  case exAfAf | exx => cases hi
  case nop => exact start.fallThrough _
  case ldRR | ldRN | resR | setR => exact (start.setReg8 _ _).fallThrough _
  case ldRHl | ldRXd => exact start.loadByte fun _ => (start.setReg8 _ _).fallThrough _
  case ldAPtr | ldAAbs => exact start.loadByte fun v => (start.setReg8 .a v).fallThrough _
  case ldHlR | ldHlN | ldPtrA | ldAbsA | ldXdR | ldXdN => exact start.storeByte rfl fun _ _ h => h.fallThrough _
  case ldDdNn | incSs | decSs => exact (start.setPair _ _ (by rintro rfl; rfl)).fallThrough _
  case ldHlAbs => exact start.loadWord fun v => (start.setHl v).fallThrough _
  case ldDdAbs => exact start.loadWord fun v => (start.setPair _ v (by rintro rfl; rfl)).fallThrough _
  case ldXyAbs => exact start.loadWord fun v => (start.setIndex v rfl).fallThrough _
  case ldAbsHl | ldAbsDd | ldAbsXy => exact start.storeWord rfl fun _ _ h => h.fallThrough _
  case ldSpHl | ldSpXy => exact (start.setSp _ rfl).fallThrough _
  case ldXyNn | incXy | decXy => exact (start.setIndex _ rfl).fallThrough _
  case ldXhN => exact (start.setHalf _ _ rfl).fallThrough _
  case ldRho => exact (start.setRho _ _ fun h => if_pos h).fallThrough _
  case ldIA => exact (start.setI _ rfl).fallThrough _
  case ldRefreshA => exact (start.setR _ rfl).fallThrough _
  case ldARefresh => exact (start.draw.setAccFlags _ _ _ rfl).fallThrough _
  case pushQq | pushXy => exact start.push16 rfl rfl fun _ _ h => h.fallThrough _
  case popQq => exact start.pop16 rfl fun v _ _ h => (h.setStackPair _ v (by rintro rfl; rfl)).fallThrough _
  case popXy => exact start.pop16 rfl fun v _ _ h => (h.setIndex v rfl).fallThrough _
  case exDeHl => exact ((((start.setReg8 .d s.h).setReg8 .e s.l).setReg8 .h s.d).setReg8 .l s.e).fallThrough _
  case exSpHl => exact start.exchangeTop rfl fun v _ _ h => (h.setHl v).fallThrough _
  case exSpXy => exact start.exchangeTop rfl fun v _ _ h => (h.setIndex v rfl).fallThrough _
  case addR | addN | addXh | adcR | adcN | adcXh | subR | subN | subXh | sbcR | sbcN | sbcXh | andR | andN | andXh | xorR | xorN
      | xorXh | orR | orN | orXh | neg | daa | cpl | rlca | rrca | rla | rra | ldAI =>
    exact (start.setAccFlags _ _ _ rfl).fallThrough _
  case addHl | adcHl | subHl | sbcHl | andHl | xorHl | orHl | addXd | adcXd | subXd | sbcXd | andXd | xorXd | orXd =>
    exact start.loadByte fun _ => (start.setAccFlags _ _ _ rfl).fallThrough _
  case cpR | cpN | cpXh => exact (start.setFlags _ _ rfl).fallThrough _
  case cpHl | cpXd => exact start.loadByte fun _ => (start.setFlags _ _ rfl).fallThrough _
  case scf | ccf => exact (start.setFlagsDrawn _ _ rfl).fallThrough _
  case bitR => exact (start.bitReg _ _ rfl).fallThrough _
  case bitHl | bitXd => exact start.loadByte fun _ => (start.bitMem _ _ rfl).fallThrough _
  case incR | decR | rlcR | rrcR | rlR | rrR | slaR | sraR | sllR | srlR =>
    exact ((start.setFlags _ _ rfl).setReg8 _ _).fallThrough _
  case incXh | decXh => exact ((start.setFlags _ _ rfl).setHalf _ _ rfl).fallThrough _
  case incHl | decHl | incXd | decXd | rlcHl | rrcHl | rlHl | rrHl | slaHl | sraHl | sllHl | srlHl | rlcXd | rrcXd | rlXd | rrXd
      | slaXd | sraXd | sllXd | srlXd =>
    exact start.modifyByte rfl (fun _ => ⟨rfl, start.setFlags _ _ rfl⟩) fun _ _ _ h => h.fallThrough _
  case rlcXdR | rrcXdR | rlXdR | rrXdR | slaXdR | sraXdR | sllXdR | srlXdR =>
    exact start.modifyByte rfl (fun _ => ⟨rfl, start.setFlags _ _ rfl⟩) fun _ _ _ h => (h.setReg8 _ _).fallThrough _
  case resHl | setHl | resXd | setXd => exact start.modifyByte rfl (fun _ => ⟨rfl, start⟩) fun _ _ _ h => h.fallThrough _
  case addHlSs => exact ((start.setFlags _ _ rfl).setHl _).fallThrough _
  case adcHlSs | sbcHlSs => exact ((start.setHl _).setF _ rfl).fallThrough _
  case addXyPp => exact ((start.setFlags _ _ rfl).setIndex _ rfl).fallThrough _
  case jpNn | jpHl | jpXy => exact start.jump _
  case jpCc => exact .ite (start.jump _) (start.fallThrough _)
  case jrE => exact start.withRebase fun _ => start.jump _
  case jrCc => exact .ite (start.withRebase fun _ => start.jump _) (start.fallThrough _)
  case djnz =>
    have counted : Paired _ s u 2 _ _ := start.setReg8 .b (s.b - 1)
    exact .ite (start.withRebase fun w => counted.jump w) (counted.fallThrough _)
  case callNn | rst => exact start.callTo _ _ rfl rfl
  case callCc => exact .ite (start.callTo _ _ rfl rfl) (start.fallThrough _)
  case ret => exact start.pop16 rfl fun v _ _ h => h.jump v
  case retCc => exact .ite (start.pop16 rfl fun v _ _ h => h.jump v) (start.fallThrough _)
  case halt => exact start.withRebase fun w => .ite (start.markFinal rfl) (start.jump w)

theorem reachesShadow_iff (i : Instr) : reachesShadow i = true ↔ i = .exAfAf ∨ i = .exx := by
  cases i <;> simp [reachesShadow]

/-- Every next state comes from the state before by the updates that its instruction may make. -/
theorem exec_changes {i : Instr} {s t : State} (h : exec i s = .next t) : Changes i s 2 t := by
  cases hi : reachesShadow i with
  | false =>
    have hp := exec_paired i s s hi
    rw [h] at hp
    obtain ⟨_, -, hp⟩ := hp.of_next
    exact hp.changes
  | true =>
    rcases (reachesShadow_iff i).1 hi with rfl | rfl
    · obtain rfl := (fallThrough_next _ _ _).1 h
      exact (((Changes.start.setReg8 .a s.a').setF s.f' rfl).setShadow s.a s.f _ _ _ _ _ _ rfl).setPc _
    · obtain rfl := (fallThrough_next _ _ _).1 h
      exact (((((((Changes.start.setReg8 .b s.b').setReg8 .c s.c').setReg8 .d s.d').setReg8 .e s.e').setReg8 .h s.h').setReg8
        .l s.l').setShadow _ _ s.b s.c s.d s.e s.h s.l rfl).setPc _

end Sys2Proof.Machine

/-! What no instruction changes but those that name it: the frames that `Changes` gives, one induction each. -/

namespace Sys2Proof.Machine

namespace Changes

variable {i : Instr} {s t : State} {n : Nat}

/-- Nothing writes the interrupt state, the environment scalars, `page` or a launch parameter (10_state.md R42 to R44). -/
theorem environment (h : Changes i s n t) :
    t.iff1 = s.iff1 ∧ t.iff2 = s.iff2 ∧ t.im = s.im ∧ t.eiInst = s.eiInst ∧ t.halt = s.halt ∧ t.tstates = s.tstates
      ∧ t.page = s.page ∧ t.params = s.params := by
  induction h with
  | start => exact ⟨rfl, rfl, rfl, rfl, rfl, rfl, rfl, rfl⟩
  | setReg8 r v _ ih => simpa using ih
  | setHalf q v _ _ ih => simpa using ih
  | _ => assumption

theorem draws_bounds (h : Changes i s n t) : s.draws ≤ t.draws ∧ t.draws ≤ s.draws + n := by
  induction h with
  | start => omega
  | setReg8 r v _ ih => simpa using ih
  | setHalf q v _ _ ih => simpa using ih
  | draw _ ih => simp only [State.afterDraw_draws]; omega
  | _ => assumption

theorem i_eq (h : Changes i s n t) (hi : i ≠ .ldIA) : t.i = s.i := by
  induction h with
  | start => rfl
  | setReg8 r v _ ih => simpa using ih
  | setHalf q v _ _ ih => simpa using ih
  | setI v hi' => exact absurd hi' hi
  | _ => assumption

theorem r_eq (h : Changes i s n t) (hi : i ≠ .ldRefreshA) : t.r = s.r := by
  induction h with
  | start => rfl
  | setReg8 r v _ ih => simpa using ih
  | setHalf q v _ _ ih => simpa using ih
  | setR v hi' => exact absurd hi' hi
  | _ => assumption

theorem sp_eq (h : Changes i s n t) (hi : writesSp i = false) : t.sp = s.sp := by
  induction h with
  | start => rfl
  | setReg8 r v _ ih => simpa using ih
  | setHalf q v _ _ ih => simpa using ih
  | setSp w hi' => exact absurd hi' (by simp [hi])
  | _ => assumption

theorem f_eq (h : Changes i s n t) (hi : writesFlags i = false) : t.f = s.f := by
  induction h with
  | start => rfl
  | setReg8 r v _ ih => simpa using ih
  | setHalf q v _ _ ih => simpa using ih
  | setF v hi' => exact absurd hi' (by simp [hi])
  | _ => assumption

theorem half_eq (h : Changes i s n t) {x : IndexReg} (hx : writesIndex i ≠ some x) (q : IndexHalf) :
    t.half x q = s.half x q := by
  induction h with
  | start => rfl
  | setReg8 r v _ ih => cases r <;> exact ih
  | setHalf q' v hx' _ ih =>
    have hne : ¬(x = _ ∧ q = q') := fun ⟨hxx, _⟩ => hx (hxx ▸ hx')
    rw [State.half_setHalf, if_neg hne]
    exact ih
  | _ => assumption

theorem keeps_shadow (h : Changes i s n t) (hi : reachesShadow i = false) : sameShadow s t := by
  induction h with
  | start => exact ⟨rfl, rfl, rfl, rfl, rfl, rfl, rfl, rfl⟩
  | setReg8 r v _ ih => simpa [sameShadow] using ih
  | setHalf q v _ _ ih => simpa [sameShadow] using ih
  | setShadow a f b c d e h l hi' => exact absurd hi' (by simp [hi])
  | _ => assumption

end Changes

/-- Settles O48: the step's instruction leaves them, and draws at most twice. -/
theorem stepKeepsEnvironment : Obligations.StepKeepsEnvironment := by
  unfold Obligations.StepKeepsEnvironment
  intro s t h
  obtain ⟨-, i, -, hx⟩ := step_next h
  have hc := exec_changes hx
  obtain ⟨h1, h2, h3, h4, h5, h6, h7, h8⟩ := hc.environment
  exact ⟨h1, h2, h3, h4, h5, h6, h7, h8, hc.draws_bounds⟩

/-- Settles O49: each of the five by contraposition of its frame. -/
theorem registerWriters : Obligations.RegisterWriters := by
  unfold Obligations.RegisterWriters
  intro i s t h
  have hc := exec_changes h
  exact ⟨not_imp_comm.1 hc.i_eq, not_imp_comm.1 hc.r_eq,
    fun hsp => Bool.of_not_eq_false (mt hc.sp_eq hsp),
    not_imp_comm.1 fun hx => ⟨hc.half_eq hx .high, hc.half_eq hx .low⟩,
    not_imp_comm.1 fun hy => ⟨hc.half_eq hy .high, hc.half_eq hy .low⟩⟩

/-- Settles O50: `F` is among the updates of the flag-writing instructions only. -/
theorem flagsUnchanged : Obligations.FlagsUnchanged := by
  unfold Obligations.FlagsUnchanged
  exact fun _ _ _ h hf => (exec_changes h).f_eq hf

/-- Settles O52: the two runs, side by side, end alike, and neither changes its shadow set. -/
theorem shadowSetIsolated : Obligations.ShadowSetIsolated := by
  unfold Obligations.ShadowSetIsolated
  intro i s t hi hst
  have hp : PairedEnds i s t 2 (exec i s) (exec i t) := by
    have hp := exec_paired i s t hi
    rwa [← show t = s.withShadow t from hst] at hp
  cases hx : exec i s with
  | next s' =>
    rw [hx] at hp
    obtain ⟨t', hy, hc, rfl⟩ := hp.of_next
    exact ⟨_, hy, rfl, hc.keeps_shadow hi, rfl, rfl, rfl, rfl, rfl, rfl, rfl, rfl⟩
  | fault r => rw [hx] at hp; exact hp.of_fault
  | refused r => rw [hx] at hp; exact hp.of_refused

end Sys2Proof.Machine

/-! Memory and `written` over an instruction and a step (20_memory.md R70, R75, R88): what `Changes` gives of them, one induction
each, and the launch state. -/

namespace Sys2Proof.Machine

namespace Changes

variable {i : Instr} {s t : State} {n : Nat}

/-- A write of a byte is the only update that reaches memory or `written`, and it keeps both canonical forms. -/
theorem inv (h : Changes i s n t) (hs : s.Inv) : t.Inv := by
  induction h with
  | start => exact hs
  | setReg8 r v _ ih => simpa [State.Inv] using ih
  | setHalf q v _ _ ih => simpa [State.Inv] using ih
  | writeByte a v _ _ ih => exact State.wf_writeByte _ a v ih
  | _ => assumption

theorem mem_written_eq (h : Changes i s n t) (hi : writesMemory i = false) : t.mem = s.mem ∧ t.written = s.written := by
  induction h with
  | start => exact ⟨rfl, rfl⟩
  | setReg8 r v _ ih => simpa using ih
  | setHalf q v _ _ ih => simpa using ih
  | writeByte a v hi' => exact absurd hi' (by simp [hi])
  | _ => assumption

theorem written_subset (h : Changes i s n t) : s.written ⊆ t.written := by
  induction h with
  | start => exact List.Subset.refl _
  | setReg8 r v _ ih => simpa using ih
  | setHalf q v _ _ ih => simpa using ih
  | writeByte a v _ _ ih => exact fun m hm => (State.mem_written_writeByte _ a v m).2 (.inr (ih hm))
  | _ => assumption

/-- A byte whose address is not in `written` at the end has not been changed (20_memory.md R88). -/
theorem readByte_eq (h : Changes i s n t) {k : Word} (hk : k.toNat ∉ t.written) : t.readByte k = s.readByte k := by
  induction h with
  | start => rfl
  | setReg8 r v _ ih => simpa [State.readByte] using ih (by simpa using hk)
  | setHalf q v _ _ ih => simpa [State.readByte] using ih (by simpa using hk)
  | writeByte a v _ _ ih =>
    rw [State.mem_written_writeByte, not_or] at hk
    obtain ⟨hne, hk⟩ := hk
    rw [State.readByte_writeByte_other _ v (mt (congrArg BitVec.toNat) hne)]
    exact ih hk
  | setPc _ _ ih | draw _ ih | setSp _ _ _ ih | setF _ _ _ ih | setI _ _ _ ih | setR _ _ _ ih
  | setShadow _ _ _ _ _ _ _ _ _ _ ih | markFinal _ _ ih => exact ih hk

end Changes

/-- Settles O47: the step's instruction changes memory and `written` by byte writes alone. -/
theorem stepKeepsInv : Obligations.StepKeepsInv := by
  unfold Obligations.StepKeepsInv
  intro s t hs h
  obtain ⟨-, i, -, hx⟩ := step_next h
  exact (exec_changes hx).inv hs

/-- Settles O51: the three frames of memory and `written`, the second by contraposition. -/
theorem memoryWriters : Obligations.MemoryWriters := by
  unfold Obligations.MemoryWriters
  intro i s t h
  have hc := exec_changes h
  exact ⟨hc.mem_written_eq, fun k => not_imp_comm.1 hc.readByte_eq, fun _ hn => hc.written_subset hn⟩

/-- Settles O46: memory and `written` of the launch state are empty lists. -/
theorem resetInv : Obligations.ResetInv := by
  unfold Obligations.ResetInv
  exact ⟨⟨Memory.wf_reset, rfl⟩, ⟨rfl, rfl⟩, Nat.zero_lt_succ 3⟩

end Sys2Proof.Machine

/-! The instructions that share an operand form, as one equation for each family: the access that the form makes, and the rest. An
operand outside `READABLE` or `WRITABLE` (20_memory.md R76, R78) is then the stuck case of that access. -/

namespace Sys2Proof.Machine

/-- The effect of an accumulator operation on `A` and `F` (43_arith8.md R271 to R275; 44_logical.md R300). -/
def State.alu (s : State) : AluOp → Byte → State
  | .add => s.addA
  | .adc => s.adcA
  | .sub => s.subA
  | .sbc => s.sbcA
  | .and => s.logicA .and
  | .xor => s.logicA .xor
  | .or => s.logicA .or
  | .cp => s.cpA

theorem exec_aluInstr (op : AluOp) (o : Source8) (s : State) :
    exec (aluInstr op o) s =
      if o.readable s then fallThrough (s.alu op (o.value s)) o.length else .fault .stuck := by
  cases o <;> cases op <;> rfl

theorem exec_incMem (m : Mem8) (s : State) :
    exec (incMem m) s = modifyByte s (m.address s) State.inc8 fun _ s1 => fallThrough s1 m.countLength := by
  cases m <;> rfl

theorem exec_decMem (m : Mem8) (s : State) :
    exec (decMem m) s = modifyByte s (m.address s) State.dec8 fun _ s1 => fallThrough s1 m.countLength := by
  cases m <;> rfl

theorem exec_rotateMem (op : RotOp) (m : Mem8) (s : State) :
    exec (rotateMem op m) s =
      modifyByte s (m.address s) (fun s v => s.rotate op v) fun _ s1 => fallThrough s1 m.cbLength := by
  cases m <;> cases op <;> rfl

theorem exec_rotateCopy (op : RotOp) (x : IndexReg) (d : Byte) (r : Reg8) (s : State) :
    exec (rotateCopy op x d r) s =
      modifyByte s (s.indexed x d) (fun s v => s.rotate op v) fun v s1 => fallThrough (s1.setReg8 r v) 4 := by
  cases op <;> rfl

theorem exec_resMemInstr (b : Fin 8) (m : Mem8) (s : State) :
    exec (resMemInstr b m) s =
      modifyByte s (m.address s) (fun s v => (resBit b v, s)) fun _ s1 => fallThrough s1 m.cbLength := by
  cases m <;> rfl

theorem exec_setMemInstr (b : Fin 8) (m : Mem8) (s : State) :
    exec (setMemInstr b m) s =
      modifyByte s (m.address s) (fun s v => (setBit b v, s)) fun _ s1 => fallThrough s1 m.cbLength := by
  cases m <;> rfl

theorem exec_byteStore (o : ByteStore) (s : State) :
    exec o.instr s = storeByte s (o.address s) (o.value s) fun s1 => fallThrough s1 o.length := by
  cases o with
  | ptrA q => cases q <;> rfl
  | _ => rfl

theorem exec_ldHlAbs (nn : Word) (s : State) :
    exec (.ldHlAbs nn) s = loadWord s nn fun v => fallThrough (s.setHl v) 3 := rfl

theorem exec_ldDdAbs (p : RegPair) (nn : Word) (s : State) :
    exec (.ldDdAbs p nn) s = loadWord s nn fun v => fallThrough (s.setPair p v) 4 := rfl

theorem exec_ldXyAbs (x : IndexReg) (nn : Word) (s : State) :
    exec (.ldXyAbs x nn) s = loadWord s nn fun v => fallThrough (s.setIndex x v) 4 := rfl

theorem exec_ldAbsHl (nn : Word) (s : State) :
    exec (.ldAbsHl nn) s = storeWord s nn s.hl fun s1 => fallThrough s1 3 := rfl

theorem exec_ldAbsDd (p : RegPair) (nn : Word) (s : State) :
    exec (.ldAbsDd p nn) s = storeWord s nn (s.pair p) fun s1 => fallThrough s1 4 := rfl

theorem exec_ldAbsXy (x : IndexReg) (nn : Word) (s : State) :
    exec (.ldAbsXy x nn) s = storeWord s nn (s.index x) fun s1 => fallThrough s1 4 := rfl

/-- Settles O12: each instruction is its access, which R78 does not admit. -/
theorem inaccessibleOperandIsStuck : Obligations.InaccessibleOperandIsStuck := by
  unfold Obligations.InaccessibleOperandIsStuck
  refine ⟨fun op o s h => ?_, fun m s h => ⟨?_, ?_, fun op => ?_, fun b => ⟨?_, ?_⟩, fun op x d r hm => ?_⟩,
    fun s => ⟨fun o h => ?_, fun nn h => ?_, fun nn h => ?_⟩⟩
  · rw [exec_aluInstr, h, if_neg Bool.false_ne_true]
  · rw [exec_incMem]; exact modifyByte_stuck _ _ _ _ (State.setFlags_params _ _ _) h
  · rw [exec_decMem]; exact modifyByte_stuck _ _ _ _ (State.setFlags_params _ _ _) h
  · rw [exec_rotateMem]; exact modifyByte_stuck _ _ _ _ (State.setFlags_params _ _ _) h
  · rw [exec_resMemInstr]; exact modifyByte_stuck _ _ _ _ rfl h
  · rw [exec_setMemInstr]; exact modifyByte_stuck _ _ _ _ rfl h
  · subst hm
    rw [exec_rotateCopy]; exact modifyByte_stuck _ _ _ _ (State.setFlags_params _ _ _) h
  · rw [exec_byteStore]; exact storeByte_stuck _ _ _ _ h
  · rw [exec_ldHlAbs]
    exact ⟨loadWord_stuck _ _ _ h, fun p => by rw [exec_ldDdAbs]; exact loadWord_stuck _ _ _ h,
      fun x => by rw [exec_ldXyAbs]; exact loadWord_stuck _ _ _ h⟩
  · rw [exec_ldAbsHl]
    exact ⟨storeWord_stuck _ _ _ _ h, fun p => by rw [exec_ldAbsDd]; exact storeWord_stuck _ _ _ _ h,
      fun x => by rw [exec_ldAbsXy]; exact storeWord_stuck _ _ _ _ h⟩

end Sys2Proof.Machine

/-! A word in memory and in the instruction stream, low byte first (20_memory.md R72 to R74). -/

namespace Sys2Proof.Machine

/-- A form with one opcode byte before its immediate word: its encoding has the low byte first, and it is read back if the decoder
joins the two bytes in that order. -/
theorem encode_decode_word {b0 : Byte} {form : Word → Instr} (henc : ∀ v, encode (form v) = [b0] ++ [lo v, hi v])
    (hdec : ∀ l h, decode b0 l h 0 = .ok (form (join h l))) (nn : Word) :
    encode (form nn) = [b0] ++ [lo nn, hi nn] ∧ decodeBytes ([b0] ++ [lo nn, hi nn]) = .ok (form nn) :=
  ⟨henc nn, (hdec (lo nn) (hi nn)).trans (by rw [join_hi_lo])⟩

/-- The same of a form with a prefix. -/
theorem encode_decode_prefixed_word {b0 b1 : Byte} {form : Word → Instr}
    (henc : ∀ v, encode (form v) = [b0, b1] ++ [lo v, hi v])
    (hdec : ∀ l h, decode b0 b1 l h = .ok (form (join h l))) (nn : Word) :
    encode (form nn) = [b0, b1] ++ [lo nn, hi nn] ∧ decodeBytes ([b0, b1] ++ [lo nn, hi nn]) = .ok (form nn) :=
  ⟨henc nn, (hdec (lo nn) (hi nn)).trans (by rw [join_hi_lo])⟩

theorem State.canReadWord_iff (s : State) (a : Word) :
    s.canReadWord a = true ↔ s.canRead a = true ∧ s.canRead (a + 1) = true := Bool.and_eq_true_iff

theorem State.canWriteWord_iff (s : State) (a : Word) :
    s.canWriteWord a = true ↔ s.canWrite a = true ∧ s.canWrite (a + 1) = true := Bool.and_eq_true_iff

theorem State.canRead_of_params {s t : State} (h : t.params = s.params) (a : Word) : t.canRead a = s.canRead a := by
  simp only [State.canRead, h]

theorem StoredWord.wordAt {s t : State} {a v : Word} (h : StoredWord s t a v) : t.wordAt a = v := by
  obtain ⟨hlo, hhi, -, -⟩ := h
  rw [State.wordAt, hlo, hhi, join_hi_lo]

theorem exec_ldAAbs_of_canRead {s : State} {nn : Word} (h : s.canRead nn = true) :
    exec (.ldAAbs nn) s = .next { s with a := s.readByte nn, pc := s.pc + 3 } :=
  if_pos h

theorem exec_ldDdAbs_of_canReadWord {s : State} {nn : Word} (p : RegPair) (h : s.canReadWord nn = true) :
    exec (.ldDdAbs p nn) s = .next { s.setPair p (s.wordAt nn) with pc := s.pc + 4 } := by
  obtain ⟨hl, hh⟩ := (s.canReadWord_iff nn).1 h
  rw [exec_ldDdAbs, loadWord_next, fallThrough_next, State.setPair_pc]
  exact ⟨hl, hh, rfl⟩

theorem exec_ldAbsDd_of_canWriteWord {s : State} {nn : Word} (p : RegPair) (h : s.canWriteWord nn = true) :
    ∃ t, exec (.ldAbsDd p nn) s = .next t ∧ StoredWord s t nn (s.pair p) ∧ t.params = s.params := by
  obtain ⟨hl, hh⟩ := (s.canWriteWord_iff nn).1 h
  simp only [exec_ldAbsDd, storeWord_next, fallThrough_next]
  exact ⟨_, ⟨hl, hh, rfl⟩, storedWord_store s nn (s.pair p), rfl⟩

/-- Settles O7: the fourteen immediate forms one by one; then what the store leaves is what the loads read. -/
theorem wordStoreThenLoad : Obligations.WordStoreThenLoad := by
  unfold Obligations.WordStoreThenLoad
  refine ⟨fun nn p cc x => ?_, fun s p q nn hw hr => ?_⟩
  · simp only [List.forall_mem_cons]
    refine ⟨?_, ?_, ?_, ?_, ?_, ?_, ?_, ?_, ?_, ?_, ?_, ?_, ?_, ?_, List.forall_mem_nil _⟩
    · exact encode_decode_word (form := .ldDdNn p) (fun _ => rfl) (fun _ _ => by cases p <;> rfl) nn
    · exact encode_decode_word (form := .ldHlAbs) (fun _ => rfl) (fun _ _ => rfl) nn
    · exact encode_decode_word (form := .ldAbsHl) (fun _ => rfl) (fun _ _ => rfl) nn
    · exact encode_decode_word (form := .ldAAbs) (fun _ => rfl) (fun _ _ => rfl) nn
    · exact encode_decode_word (form := .ldAbsA) (fun _ => rfl) (fun _ _ => rfl) nn
    · exact encode_decode_word (form := .jpNn) (fun _ => rfl) (fun _ _ => rfl) nn
    · exact encode_decode_word (form := .jpCc cc) (fun _ => rfl) (fun _ _ => by cases cc <;> rfl) nn
    · exact encode_decode_word (form := .callNn) (fun _ => rfl) (fun _ _ => rfl) nn
    · exact encode_decode_word (form := .callCc cc) (fun _ => rfl) (fun _ _ => by cases cc <;> rfl) nn
    · exact encode_decode_prefixed_word (form := .ldDdAbs p) (fun _ => rfl) (fun _ _ => by cases p <;> rfl) nn
    · exact encode_decode_prefixed_word (form := .ldAbsDd p) (fun _ => rfl) (fun _ _ => by cases p <;> rfl) nn
    · exact encode_decode_prefixed_word (form := .ldXyNn x) (fun _ => rfl) (fun _ _ => by cases x <;> rfl) nn
    · exact encode_decode_prefixed_word (form := .ldXyAbs x) (fun _ => rfl) (fun _ _ => by cases x <;> rfl) nn
    · exact encode_decode_prefixed_word (form := .ldAbsXy x) (fun _ => rfl) (fun _ _ => by cases x <;> rfl) nn
  · obtain ⟨t, ht, hst, hparams⟩ := exec_ldAbsDd_of_canWriteWord p hw
    obtain ⟨hl, hh⟩ := (s.canReadWord_iff nn).1 hr
    rw [← State.canRead_of_params hparams] at hl hh
    have hword := exec_ldDdAbs_of_canReadWord q ((t.canReadWord_iff nn).2 ⟨hl, hh⟩)
    have hlow := exec_ldAAbs_of_canRead hl
    have hhigh := exec_ldAAbs_of_canRead hh
    rw [hst.wordAt] at hword
    obtain ⟨hlo, hhi, -, -⟩ := hst
    rw [hlo] at hlow
    rw [hhi] at hhigh
    exact ⟨t, ht, hword, hlow, hhigh⟩

end Sys2Proof.Machine

/-! The bytes of an instruction (30_encoding.md R100 to R122): encoding and decoding are inverse to each other. An opcode byte has
256 values, and a fact about it is evaluated at each; operand bytes stay variables. -/

namespace Sys2Proof

open Sys2Proof.Machine (join hi lo hi_join lo_join join_hi_lo isPrefixByte)

/-! ## The decoder by its prefixes -/

theorem exists_opcode (op : Byte) : ∃ n < 256, op = opcode n :=
  ⟨op.toNat, op.isLt, by simp [opcode]⟩

/-- Two bytes are the halves of a word. -/
theorem exists_lo_hi (l h : Byte) : ∃ nn : Word, lo nn = l ∧ hi nn = h :=
  ⟨join h l, lo_join h l, hi_join h l⟩

/-- An unprefixed sequence, by the quadrants of R122. -/
def decodeUnprefixed (op b1 : Byte) (nn : Word) : Except DecodeReject Instr :=
  match quadrantOf op with
  | 0 => .ok (decodeQuadrant0 op b1 nn)
  | 1 => .ok (decodeQuadrant1 op)
  | 2 => .ok (decodeQuadrant2 op)
  | _ => decodeQuadrant3 op b1 nn

theorem decode_ed (op b2 b3 : Byte) : decode 0xED op b2 b3 = decodeEd op (join b3 b2) := rfl

theorem decode_prefixOf (x : IndexReg) (b1 b2 b3 : Byte) : decode (prefixOf x) b1 b2 b3 = decodeIndex x b1 b2 b3 := by
  cases x <;> rfl

/-- Four bytes and what the decoder makes of them, by the prefixes they begin with (R101, R115). -/
inductive DecodesTo : Byte → Byte → Byte → Byte → Except DecodeReject Instr → Prop
  | unprefixed {op : Byte} (b1 b2 b3 : Byte) (h : isPrefixByte op = false) :
      DecodesTo op b1 b2 b3 (decodeUnprefixed op b1 (join b2 b1))
  | cb (op b2 b3 : Byte) : DecodesTo 0xCB op b2 b3 (.ok (decodeCb op))
  | ed (op b2 b3 : Byte) : DecodesTo 0xED op b2 b3 (decodeEd op (join b3 b2))
  | index (x : IndexReg) {op : Byte} (b2 b3 : Byte) (h : op ≠ 0xCB) : DecodesTo (prefixOf x) op b2 b3 (decodeIndex x op b2 b3)
  | indexCb (x : IndexReg) (d op : Byte) : DecodesTo (prefixOf x) 0xCB d op (decodeXcb x d op)

theorem decodesTo_decodeIndex (x : IndexReg) (b1 b2 b3 : Byte) :
    DecodesTo (prefixOf x) b1 b2 b3 (decodeIndex x b1 b2 b3) := by
  by_cases h : b1 = 0xCB
  · subst h
    exact .indexCb x b2 b3
  · exact .index x b2 b3 h

theorem decodesTo_decode (b0 b1 b2 b3 : Byte) : DecodesTo b0 b1 b2 b3 (decode b0 b1 b2 b3) := by
  unfold decode
  split_ifs with hcb hed hdd hfd
  · subst hcb
    exact .cb b1 b2 b3
  · subst hed
    exact .ed b1 b2 b3
  · subst hdd
    exact decodesTo_decodeIndex .ix b1 b2 b3
  · subst hfd
    exact decodesTo_decodeIndex .iy b1 b2 b3
  · refine .unprefixed b1 b2 b3 ?_
    simp only [isPrefixByte, Bool.or_eq_false_iff, beq_eq_false_iff_ne]
    exact ⟨⟨⟨hcb, hed⟩, hdd⟩, hfd⟩

/-! ## An instruction is read back from its encoding -/

@[simp] theorem byteAt_cons_zero (b : Byte) (bytes : List Byte) : byteAt (b :: bytes) 0 = b := rfl

@[simp] theorem byteAt_cons_succ (b : Byte) (bytes : List Byte) (k : Nat) :
    byteAt (b :: bytes) (k + 1) = byteAt bytes k := rfl

theorem decodeBytes_cons (b : Byte) (bytes : List Byte) :
    decodeBytes (b :: bytes) = decode b (byteAt bytes 0) (byteAt bytes 1) (byteAt bytes 2) := rfl

/-- The copies `LD ρ,ρ'` are the ones with an index half (R110). -/
theorem decode_copy (x : IndexReg) (t s : Rho) (b2 b3 : Byte) :
    decode (prefixOf x) (opcode (0x40 + rhoCode t * 8 + rhoCode s)) b2 b3 =
      if t.isHalf || s.isHalf then .ok (.ldRho x t s) else .error .notInBlock := by
  rw [decode_prefixOf]
  cases t <;> cases s <;> rfl

/-- The cases are grouped by their operands: each field of an opcode byte is evaluated at each of its values, an immediate byte
stays a variable, and an immediate word is the join of its halves. -/
theorem decodeBytes_encode (i : Instr) (rest : List Byte) (hwf : i.wellFormed = true) :
    decodeBytes (encode i ++ rest) = .ok i := by
  cases i with
    simp only [encode, List.cons_append, List.nil_append, decodeBytes_cons, byteAt_cons_zero, byteAt_cons_succ]
  | nop | ldSpHl | exDeHl | exAfAf | exx | exSpHl | addHl | adcHl | subHl | sbcHl | andHl | xorHl | orHl | cpHl | incHl
  | decHl | rlca | rrca | rla | rra | daa | cpl | scf | ccf | halt | jpHl | ret | rlcHl | rrcHl | rlHl | rrHl | slaHl | sraHl
  | sllHl | srlHl | neg | ldIA | ldRefreshA | ldAI | ldARefresh => rfl
  | ldHlN n | addN n | adcN n | subN n | sbcN n | andN n | xorN n | orN n | cpN n | jrE n | djnz n => rfl
  | ldRN r n | ldRHl r | ldHlR r | addR r | adcR r | subR r | sbcR r | andR r | xorR r | orR r | cpR r | incR r | decR r
  | rlcR r | rrcR r | rlR r | rrR r | slaR r | sraR r | sllR r | srlR r => cases r <;> rfl
  | ldRR r r' => cases r <;> cases r' <;> rfl
  | ldAPtr f | ldPtrA f | pushQq f | popQq f | addHlSs f | incSs f | decSs f | adcHlSs f | sbcHlSs f | jrCc f n | retCc f =>
    cases f <;> rfl
  | ldAAbs nn | ldAbsA nn | ldHlAbs nn | ldAbsHl nn | jpNn nn | callNn nn =>
    conv_rhs => rw [← join_hi_lo nn]
    rfl
  | ldDdNn f nn | jpCc f nn | callCc f nn | ldDdAbs f nn | ldAbsDd f nn | ldXyNn f nn | ldXyAbs f nn | ldAbsXy f nn =>
    conv_rhs => rw [← join_hi_lo nn]
    cases f <;> rfl
  | rst b | bitHl b | resHl b | setHl b => fin_cases b <;> rfl
  | bitR b r | resR b r | setR b r => fin_cases b <;> cases r <;> rfl
  | ldSpXy x | pushXy x | popXy x | exSpXy x | incXy x | decXy x | jpXy x | incXd x d | decXd x d | ldXdN x d n | addXd x d
  | adcXd x d | subXd x d | sbcXd x d | andXd x d | xorXd x d | orXd x d | cpXd x d | rlcXd x d | rrcXd x d | rlXd x d
  | rrXd x d | slaXd x d | sraXd x d | sllXd x d | srlXd x d => cases x <;> rfl
  | addXyPp x f | addXh x f | adcXh x f | subXh x f | sbcXh x f | andXh x f | xorXh x f | orXh x f | cpXh x f | incXh x f
  | decXh x f | ldXhN x f n => cases x <;> cases f <;> rfl
  | ldRXd r x d | ldXdR x d r | rlcXdR x d r | rrcXdR x d r | rlXdR x d r | rrXdR x d r | slaXdR x d r | sraXdR x d r
  | sllXdR x d r | srlXdR x d r => cases x <;> cases r <;> rfl
  | bitXd b x d | resXd b x d | setXd b x d => cases x <;> fin_cases b <;> rfl
  | ldRho x t s => exact (decode_copy x t s _ _).trans (if_pos hwf)

/-- Settles O1. -/
theorem decodeOfEncode : Obligations.DecodeOfEncode := by
  unfold Obligations.DecodeOfEncode
  exact decodeBytes_encode

/-! ## What is decoded encodes to the bytes it was read from -/

/-- The instruction is one that an encoding can produce, and the bytes begin with its encoding. -/
def ReadFrom (i : Instr) (bytes : List Byte) : Prop := i.wellFormed = true ∧ encode i <+: bytes

theorem readFrom_unprefixed (op : Byte) (nn : Word) (b3 : Byte) {i : Instr} :
    decodeUnprefixed op (lo nn) nn = .ok i → ReadFrom i [op, lo nn, hi nn, b3] := by
  obtain ⟨n, hn, rfl⟩ := exists_opcode op
  interval_cases n <;> rintro ⟨⟩ <;> exact ⟨rfl, _, rfl⟩

theorem readFrom_cb (op : Byte) (bytes : List Byte) : ReadFrom (decodeCb op) (0xCB :: op :: bytes) := by
  obtain ⟨n, hn, rfl⟩ := exists_opcode op
  interval_cases n <;> exact ⟨rfl, _, rfl⟩

theorem readFrom_ed (op : Byte) (nn : Word) {i : Instr} :
    decodeEd op nn = .ok i → ReadFrom i [0xED, op, lo nn, hi nn] := by
  obtain ⟨n, hn, rfl⟩ := exists_opcode op
  interval_cases n <;> rintro ⟨⟩ <;> exact ⟨rfl, _, rfl⟩

theorem readFrom_index (x : IndexReg) {op : Byte} (hop : op ≠ 0xCB) (nn : Word) {i : Instr} :
    decodeIndex x op (lo nn) (hi nn) = .ok i → ReadFrom i [prefixOf x, op, lo nn, hi nn] := by
  rw [decodeIndex, if_neg hop, decodeX0, join_hi_lo]
  obtain ⟨n, hn, rfl⟩ := exists_opcode op
  interval_cases n <;> rintro ⟨⟩ <;> exact ⟨rfl, _, rfl⟩

theorem readFrom_indexCb (x : IndexReg) (d op : Byte) {i : Instr} :
    decodeXcb x d op = .ok i → ReadFrom i [prefixOf x, 0xCB, d, op] := by
  obtain ⟨n, hn, rfl⟩ := exists_opcode op
  interval_cases n <;> rintro ⟨⟩ <;> exact ⟨rfl, _, rfl⟩

/-- What is decoded is well-formed, and its encoding is what was read. -/
theorem DecodesTo.readFrom {b0 b1 b2 b3 : Byte} {r : Except DecodeReject Instr} (hd : DecodesTo b0 b1 b2 b3 r) {i : Instr}
    (h : r = .ok i) : ReadFrom i [b0, b1, b2, b3] := by
  cases hd with
  | unprefixed =>
    obtain ⟨nn, rfl, rfl⟩ := exists_lo_hi b1 b2
    rw [join_hi_lo] at h
    exact readFrom_unprefixed b0 nn b3 h
  | cb =>
    cases h
    exact readFrom_cb b1 [b2, b3]
  | ed =>
    obtain ⟨nn, rfl, rfl⟩ := exists_lo_hi b2 b3
    rw [join_hi_lo] at h
    exact readFrom_ed b1 nn h
  | index x _ _ hop =>
    obtain ⟨nn, rfl, rfl⟩ := exists_lo_hi b2 b3
    exact readFrom_index x hop nn h
  | indexCb x => exact readFrom_indexCb x b2 b3 h

theorem encodedLength (i : Instr) : Laws.EncodedLength.Statement i := by
  cases i <;> exact ⟨rfl, Nat.le_of_ble_eq_true rfl, Nat.le_of_ble_eq_true rfl⟩

/-- Settles O2: the bytes read begin with the encoding, which has the instruction's length. -/
theorem encodeOfDecode : Obligations.EncodeOfDecode := by
  unfold Obligations.EncodeOfDecode
  intro b0 b1 b2 b3 i h
  obtain ⟨hwf, hprefix⟩ := (decodesTo_decode b0 b1 b2 b3).readFrom h
  obtain ⟨hlength, hpos, hle⟩ := encodedLength i
  exact ⟨hwf, hpos, hle, hlength ▸ List.prefix_iff_eq_take.1 hprefix⟩

/-! ## Words written out -/

/-- Settles O5, list by list. -/
theorem sampleWords : Obligations.SampleWords := by
  unfold Obligations.SampleWords
  refine ⟨?_, ?_, ?_, ?_, ?_, ?_⟩ <;> decide

end Sys2Proof

/-! The prefixed families of 30_encoding.md R112 to R114: what their opcodes stand for, and the opcodes refused. -/

namespace Sys2Proof

open Sys2Proof.Machine (join join_hi_lo field)

theorem eq_six_of_reg8OfCode_eq_none {n : Nat} (hn : n < 8) (h : reg8OfCode n = none) : n = 6 := by
  revert h
  interval_cases n <;> simp [reg8OfCode]

theorem decodeXcb_refused {op : Byte} (hq : quadrantOf op ≠ 0) (hz : zOf op ≠ 6) (x : IndexReg) (d : Byte) :
    decodeXcb x d op = .error .notInBlock := by
  unfold decodeXcb
  cases hr : reg8OfCode (zOf op) with
  | none => exact absurd (eq_six_of_reg8OfCode_eq_none (Nat.mod_lt _ (by decide)) hr) hz
  | some r =>
    split
    case h_1 hq0 _ => exact absurd hq0 hq
    case h_6 => rfl
    all_goals contradiction

/-- The mask `0xCF` clears the pair field `op[5:4]`. -/
theorem and_pairMask (op : Byte) : op &&& 0xCF = opcode (quadrantOf op * 64 + bit3Of op * 8 + zOf op) := by
  obtain ⟨n, hn, rfl⟩ := exists_opcode op
  interval_cases n <;> rfl

theorem decodeEd_refused {op : Byte} (h4B : op &&& 0xCF ≠ 0x4B) (h43 : op &&& 0xCF ≠ 0x43) (h4A : op &&& 0xCF ≠ 0x4A)
    (h42 : op &&& 0xCF ≠ 0x42) (h44 : op ≠ 0x44) (h47 : op ≠ 0x47) (h4F : op ≠ 0x4F) (h57 : op ≠ 0x57) (h5F : op ≠ 0x5F)
    (nn : Word) : decodeEd op nn = .error .notInBlock := by
  rw [decodeEd, if_neg h44, if_neg h47, if_neg h4F, if_neg h57, if_neg h5F]
  split_ifs with hq
  · -- A pair form of quadrant `01` is one byte under the mask.
    rw [and_pairMask, hq] at h4B h43 h4A h42
    have hbit : bit3Of op = 0 ∨ bit3Of op = 1 := Nat.mod_two_eq_zero_or_one _
    split
    case h_5 => rfl
    all_goals simp_all [opcode]
  · rfl

/-- Settles O4. -/
theorem prefixedFamilies : Obligations.PrefixedFamilies := by
  unfold Obligations.PrefixedFamilies
  refine ⟨fun op r b2 b3 => ?_, fun x d op r => ?_, fun x d op h40 h6 => ?_, fun p nn => ?_,
    fun _ _ => ⟨rfl, rfl, rfl, rfl, rfl⟩, fun op b2 b3 h4B h43 h4A h42 h44 h47 h4F h57 h5F =>
      decodeEd_refused h4B h43 h4A h42 h44 h47 h4F h57 h5F (join b3 b2)⟩
  · fin_cases op <;> cases r <;> exact ⟨rfl, rfl, rfl, rfl, rfl, rfl, rfl, rfl⟩
  · simp only [decode_prefixOf]
    fin_cases op <;> cases r <;> exact ⟨rfl, rfl, rfl, rfl, rfl⟩
  · rw [decode_prefixOf]
    refine decodeXcb_refused ?_ ?_ x d
    · simp only [quadrantOf, field]
      omega
    · simp only [zOf, field]
      omega
  · simp only [decode_ed, join_hi_lo]
    cases p <;> exact ⟨rfl, rfl, rfl, rfl⟩

end Sys2Proof

/-! The decoder and the opcode table (30_encoding.md R115, R119, R120): one row matches what is accepted, none what is refused. -/

namespace Sys2Proof

open Sys2Proof.Machine (join isPrefixByte)

/-! ## Matching a row -/

/-- The rows that match, by mnemonic and length. -/
def matchedRows (rows : List OpcodeRow) (b0 b1 b2 b3 : Byte) : List (String × Nat) :=
  (rows.filter fun row => row.isMatch b0 b1 b2 b3).map fun row => (row.mnemonic, row.length)

/-- The row of what was decoded, by mnemonic and length; none for a refusal. -/
def decodedRows : Except DecodeReject Instr → List (String × Nat)
  | .ok i => [(i.mnemonic, i.length)]
  | .error _ => []

theorem matchedRows_append (rows rows' : List OpcodeRow) (b0 b1 b2 b3 : Byte) :
    matchedRows (rows ++ rows') b0 b1 b2 b3 = matchedRows rows b0 b1 b2 b3 ++ matchedRows rows' b0 b1 b2 b3 := by
  simp only [matchedRows, List.filter_append, List.map_append]

/-- The first `k` of the `len` bytes of a row. -/
theorem rowWord_div {k len : Nat} (hk : k ≤ len) (hl : len ≤ 4) (b0 b1 b2 b3 : Byte) :
    rowWord len b0 b1 b2 b3 / 2 ^ (8 * (len - k)) = rowWord k b0 b1 b2 b3 := by
  rw [rowWord, rowWord, Nat.div_div_eq_div_mul, ← pow_add]
  congr 2
  omega

theorem rowWord_mod {k : Nat} (hk : k < 4) (b0 b1 b2 b3 : Byte) :
    rowWord (k + 1) b0 b1 b2 b3 % 2 ^ 8 = (byteAt [b0, b1, b2, b3] k).toNat := by
  have := b0.isLt
  have := b1.isLt
  have := b2.isLt
  have := b3.isLt
  interval_cases k <;> simp [rowWord] <;> omega

theorem rowWord_one (b0 b1 b2 b3 : Byte) : rowWord 1 b0 b1 b2 b3 = rowWord 1 b0 0 0 0 := by
  have := b1.isLt
  have := b2.isLt
  have := b3.isLt
  simp only [rowWord]
  omega

theorem rowWord_two (b0 b1 b2 b3 : Byte) : rowWord 2 b0 b1 b2 b3 = rowWord 2 b0 b1 0 0 := by
  have := b2.isLt
  have := b3.isLt
  simp only [rowWord]
  omega

/-! ### Rows ruled out by one byte -/

/-- `b` fits the pattern of the row's byte `k`, the first being byte 1. -/
def OpcodeRow.fits (k : Nat) (b : Byte) (row : OpcodeRow) : Bool :=
  b.toNat &&& row.mask / 2 ^ (8 * (row.length - k)) % 2 ^ 8 == row.value / 2 ^ (8 * (row.length - k)) % 2 ^ 8

theorem fits_of_isMatch {row : OpcodeRow} {k : Nat} {b0 b1 b2 b3 : Byte} (hk : k < row.length) (hl : row.length ≤ 4)
    (h : row.isMatch b0 b1 b2 b3 = true) : row.fits (k + 1) (byteAt [b0, b1, b2, b3] k) = true := by
  obtain ⟨hword, -⟩ := Bool.and_eq_true_iff.1 h
  rw [OpcodeRow.fits, beq_iff_eq, ← eq_of_beq hword, Nat.and_div_two_pow, Nat.and_mod_two_pow, rowWord_div hk hl,
    rowWord_mod (by omega)]

/-- Rows that one of the bytes does not fit can be left out. -/
theorem matchedRows_eq_of_fits {rows rows' : List OpcodeRow} (k : Nat) {b0 b1 b2 b3 : Byte}
    (hrows : ∀ row ∈ rows, k < row.length ∧ row.length ≤ 4)
    (hfits : rows.filter (OpcodeRow.fits (k + 1) (byteAt [b0, b1, b2, b3] k)) = rows') :
    matchedRows rows b0 b1 b2 b3 = matchedRows rows' b0 b1 b2 b3 := by
  subst hfits
  unfold matchedRows
  rw [List.filter_filter]
  refine congrArg _ (List.filter_congr fun row hrow => (Bool.and_eq_left_iff_imp.2 fun h => ?_).symm)
  obtain ⟨hk, hl⟩ := hrows row hrow
  exact fits_of_isMatch hk hl h

theorem matchedRows_eq_nil {rows : List OpcodeRow} (k : Nat) {b0 b1 b2 b3 : Byte}
    (hrows : ∀ row ∈ rows, k < row.length ∧ row.length ≤ 4)
    (hfits : rows.any (OpcodeRow.fits (k + 1) (byteAt [b0, b1, b2, b3] k)) = false) :
    matchedRows rows b0 b1 b2 b3 = [] :=
  matchedRows_eq_of_fits k hrows (List.filter_eq_nil_iff.2 (List.any_eq_false.1 hfits))

/-! ### Operand bytes change nothing -/

/-- `&` of two numbers goes by their lower `j` bits and the rest. -/
theorem land_congr {v w m : Nat} (j : Nat) (hdiv : v / 2 ^ j &&& m / 2 ^ j = w / 2 ^ j &&& m / 2 ^ j)
    (hmod : v % 2 ^ j &&& m % 2 ^ j = w % 2 ^ j &&& m % 2 ^ j) : v &&& m = w &&& m := by
  rw [← Nat.div_add_mod (v &&& m) (2 ^ j), ← Nat.div_add_mod (w &&& m) (2 ^ j)]
  simp only [Nat.and_div_two_pow, Nat.and_mod_two_pow, hdiv, hmod]

theorem land_eq_of_div_eq {v w m j : Nat} (hdiv : v / 2 ^ j = w / 2 ^ j) (hm : m % 2 ^ j = 0) : v &&& m = w &&& m :=
  land_congr j (by rw [hdiv]) (by rw [hm, Nat.and_zero, Nat.and_zero])

theorem matchedRows_congr {rows : List OpcodeRow} {b0 b1 b2 b3 c1 c2 c3 : Byte}
    (hop : opcodeByte b0 b1 b3 = opcodeByte b0 c1 c3)
    (hrows : ∀ row ∈ rows, rowWord row.length b0 b1 b2 b3 &&& row.mask = rowWord row.length b0 c1 c2 c3 &&& row.mask) :
    matchedRows rows b0 b1 b2 b3 = matchedRows rows b0 c1 c2 c3 := by
  unfold matchedRows
  refine congrArg _ (List.filter_congr fun row hrow => ?_)
  rw [OpcodeRow.isMatch, OpcodeRow.isMatch, hop, hrows row hrow]

/-- Prefixes and opcode are the row's first `k` bytes; the rest of it is operands. -/
def OpcodeRow.opcodeFirst (k : Nat) (row : OpcodeRow) : Bool :=
  k ≤ row.length && row.length ≤ 4 && row.mask % 2 ^ (8 * (row.length - k)) == 0

theorem matchedRows_operands {rows : List OpcodeRow} (k : Nat) (hrows : ∀ row ∈ rows, row.opcodeFirst k = true)
    {b0 b1 b2 b3 c1 c2 c3 : Byte} (hop : opcodeByte b0 b1 b3 = opcodeByte b0 c1 c3)
    (hword : rowWord k b0 b1 b2 b3 = rowWord k b0 c1 c2 c3) :
    matchedRows rows b0 b1 b2 b3 = matchedRows rows b0 c1 c2 c3 := by
  refine matchedRows_congr hop fun row hrow => ?_
  have hrow := hrows row hrow
  simp only [OpcodeRow.opcodeFirst, Bool.and_eq_true, decide_eq_true_eq, beq_iff_eq] at hrow
  obtain ⟨⟨hk, hl⟩, hmask⟩ := hrow
  exact land_eq_of_div_eq (by rw [rowWord_div hk hl, rowWord_div hk hl, hword]) hmask

theorem mask_indexCbRows : ∀ row ∈ indexCbRows, row.length = 4 ∧ row.mask / 2 ^ 8 % 2 ^ 8 = 0 := by decide

/-- The third byte of an `XY CB` row is the displacement. -/
theorem matchedRows_displacement (x : IndexReg) (d op : Byte) :
    matchedRows indexCbRows (prefixOf x) 0xCB d op = matchedRows indexCbRows (prefixOf x) 0xCB 0 op := by
  refine matchedRows_congr rfl fun row hrow => ?_
  obtain ⟨hl, hmask⟩ := mask_indexCbRows row hrow
  have hlow (d : Byte) := rowWord_mod (k := 3) (by decide) (prefixOf x) 0xCB d op
  have hhigh (d : Byte) := rowWord_div (k := 3) (len := 4) (by decide) le_rfl (prefixOf x) 0xCB d op
  have htwo (d : Byte) := rowWord_div (k := 2) (len := 3) (by decide) (by decide) (prefixOf x) 0xCB d op
  rw [hl]
  refine land_congr 8 (land_eq_of_div_eq (j := 8) ?_ hmask) ?_
  · rw [hhigh, hhigh, htwo, htwo]
    exact (rowWord_two ..).trans (rowWord_two ..).symm
  · rw [hlow, hlow]
    rfl

/-! ## The table by families -/

/-- The unprefixed rows. -/
def plainRows : List OpcodeRow := unprefixedRows ++ unprefixedRowsB

/-- The prefixed rows. -/
def prefixedRows : List OpcodeRow := cbRows ++ edRows ++ indexRows ++ indexCbRows

theorem opcodeRows_eq : opcodeRows = plainRows ++ prefixedRows := by
  simp only [opcodeRows, plainRows, prefixedRows, List.append_assoc]

theorem length_of_mem_opcodeRows : ∀ row ∈ opcodeRows, 0 < row.length ∧ row.length ≤ 4 := by
  simp only [opcodeRows, List.forall_mem_append]
  decide

theorem length_of_mem_indexRows : ∀ row ∈ indexRows ++ indexCbRows, 1 < row.length ∧ row.length ≤ 4 := by decide

theorem opcodeFirst_plainRows : ∀ row ∈ plainRows, row.opcodeFirst 1 = true := by decide

theorem opcodeFirst_cbRows : ∀ row ∈ cbRows, row.opcodeFirst 2 = true := by decide

theorem opcodeFirst_edRows : ∀ row ∈ edRows, row.opcodeFirst 2 = true := by decide

theorem opcodeFirst_indexRows : ∀ row ∈ indexRows, row.opcodeFirst 2 = true := by decide

theorem filter_fits_cb : opcodeRows.filter (OpcodeRow.fits 1 0xCB) = cbRows := by decide

theorem filter_fits_ed : opcodeRows.filter (OpcodeRow.fits 1 0xED) = edRows := by decide

theorem filter_fits_prefixOf (x : IndexReg) :
    opcodeRows.filter (OpcodeRow.fits 1 (prefixOf x)) = indexRows ++ indexCbRows := by
  cases x <;> decide

theorem filter_fits_indexCb : (indexRows ++ indexCbRows).filter (OpcodeRow.fits 2 0xCB) = indexCbRows := by decide

theorem any_fits_prefixedRows (op : Byte) : prefixedRows.any (OpcodeRow.fits 1 op) = isPrefixByte op := by
  obtain ⟨n, hn, rfl⟩ := exists_opcode op
  interval_cases n <;> rfl

theorem any_fits_indexCbRows (op : Byte) : indexCbRows.any (OpcodeRow.fits 2 op) = (op == 0xCB) := by
  obtain ⟨n, hn, rfl⟩ := exists_opcode op
  interval_cases n <;> rfl

theorem opcodeByte_of_not_prefix {b0 : Byte} (h : isPrefixByte b0 = false) (b1 b3 : Byte) : opcodeByte b0 b1 b3 = b0 := by
  simp_all [isPrefixByte, opcodeByte]

theorem opcodeByte_index (x : IndexReg) {op : Byte} (h : op ≠ 0xCB) (b3 : Byte) : opcodeByte (prefixOf x) op b3 = op := by
  cases x <;> exact if_neg h

/-! ### The decoder at each opcode byte -/

theorem matchedRows_plainRows (op b1 : Byte) (nn : Word) :
    matchedRows plainRows op 0 0 0 = decodedRows (decodeUnprefixed op b1 nn) := by
  obtain ⟨n, hn, rfl⟩ := exists_opcode op
  interval_cases n <;> rfl

theorem matchedRows_cbRows (op : Byte) : matchedRows cbRows 0xCB op 0 0 = decodedRows (.ok (decodeCb op)) := by
  obtain ⟨n, hn, rfl⟩ := exists_opcode op
  interval_cases n <;> rfl

theorem matchedRows_edRows (op : Byte) (nn : Word) : matchedRows edRows 0xED op 0 0 = decodedRows (decodeEd op nn) := by
  obtain ⟨n, hn, rfl⟩ := exists_opcode op
  interval_cases n <;> rfl

theorem matchedRows_indexRows (x : IndexReg) {op : Byte} (hop : op ≠ 0xCB) (b2 b3 : Byte) :
    matchedRows indexRows (prefixOf x) op 0 0 = decodedRows (decodeIndex x op b2 b3) := by
  rw [decodeIndex, if_neg hop]
  obtain ⟨n, hn, rfl⟩ := exists_opcode op
  cases x <;> interval_cases n <;> rfl

theorem matchedRows_indexCbRows (x : IndexReg) (d op : Byte) :
    matchedRows indexCbRows (prefixOf x) 0xCB 0 op = decodedRows (decodeXcb x d op) := by
  obtain ⟨n, hn, rfl⟩ := exists_opcode op
  cases x <;> interval_cases n <;> rfl

/-! ### The whole table -/

/-- The rows that match are the row of what is decoded: the other families are ruled out by one byte, the operand bytes do
not count, and the opcode byte is then evaluated. -/
theorem DecodesTo.matchedRows_eq {b0 b1 b2 b3 : Byte} {r : Except DecodeReject Instr} (hd : DecodesTo b0 b1 b2 b3 r) :
    matchedRows opcodeRows b0 b1 b2 b3 = decodedRows r := by
  cases hd with
  | unprefixed _ _ _ hop =>
    have hnil : matchedRows prefixedRows b0 b1 b2 b3 = [] :=
      matchedRows_eq_nil 0 (fun row h => length_of_mem_opcodeRows row (opcodeRows_eq ▸ List.mem_append_right _ h))
        ((any_fits_prefixedRows b0).trans hop)
    have hbyte : opcodeByte b0 b1 b3 = opcodeByte b0 0 0 := by simp only [opcodeByte_of_not_prefix hop]
    calc matchedRows opcodeRows b0 b1 b2 b3
      _ = matchedRows plainRows b0 b1 b2 b3 := by rw [opcodeRows_eq, matchedRows_append, hnil, List.append_nil]
      _ = matchedRows plainRows b0 0 0 0 := matchedRows_operands 1 opcodeFirst_plainRows hbyte (rowWord_one ..)
      _ = _ := matchedRows_plainRows b0 b1 (join b2 b1)
  | cb =>
    calc matchedRows opcodeRows 0xCB b1 b2 b3
      _ = matchedRows cbRows 0xCB b1 b2 b3 := matchedRows_eq_of_fits 0 length_of_mem_opcodeRows filter_fits_cb
      _ = matchedRows cbRows 0xCB b1 0 0 := matchedRows_operands 2 opcodeFirst_cbRows rfl (rowWord_two ..)
      _ = _ := matchedRows_cbRows b1
  | ed =>
    calc matchedRows opcodeRows 0xED b1 b2 b3
      _ = matchedRows edRows 0xED b1 b2 b3 := matchedRows_eq_of_fits 0 length_of_mem_opcodeRows filter_fits_ed
      _ = matchedRows edRows 0xED b1 0 0 := matchedRows_operands 2 opcodeFirst_edRows rfl (rowWord_two ..)
      _ = _ := matchedRows_edRows b1 (join b3 b2)
  | index x _ _ hop =>
    have hnil : matchedRows indexCbRows (prefixOf x) b1 b2 b3 = [] :=
      matchedRows_eq_nil 1 (fun row h => length_of_mem_indexRows row (List.mem_append_right _ h))
        ((any_fits_indexCbRows b1).trans (beq_false_of_ne hop))
    have hbyte : opcodeByte (prefixOf x) b1 b3 = opcodeByte (prefixOf x) b1 0 := by simp only [opcodeByte_index x hop]
    calc matchedRows opcodeRows (prefixOf x) b1 b2 b3
      _ = matchedRows (indexRows ++ indexCbRows) (prefixOf x) b1 b2 b3 :=
        matchedRows_eq_of_fits 0 length_of_mem_opcodeRows (filter_fits_prefixOf x)
      _ = matchedRows indexRows (prefixOf x) b1 b2 b3 := by rw [matchedRows_append, hnil, List.append_nil]
      _ = matchedRows indexRows (prefixOf x) b1 0 0 := matchedRows_operands 2 opcodeFirst_indexRows hbyte (rowWord_two ..)
      _ = _ := matchedRows_indexRows x hop b2 b3
  | indexCb x =>
    calc matchedRows opcodeRows (prefixOf x) 0xCB b2 b3
      _ = matchedRows (indexRows ++ indexCbRows) (prefixOf x) 0xCB b2 b3 :=
        matchedRows_eq_of_fits 0 length_of_mem_opcodeRows (filter_fits_prefixOf x)
      _ = matchedRows indexCbRows (prefixOf x) 0xCB b2 b3 :=
        matchedRows_eq_of_fits 1 length_of_mem_indexRows filter_fits_indexCb
      _ = matchedRows indexCbRows (prefixOf x) 0xCB 0 b3 := matchedRows_displacement x b2 b3
      _ = _ := matchedRows_indexCbRows x b2 b3

/-- Settles O3. -/
theorem decodeMatchesOneRow : Obligations.DecodeMatchesOneRow := by
  unfold Obligations.DecodeMatchesOneRow
  intro b0 b1 b2 b3
  have hrows := (decodesTo_decode b0 b1 b2 b3).matchedRows_eq
  unfold matchedRows at hrows
  cases hd : decode b0 b1 b2 b3 with
  | error e =>
    rw [hd] at hrows
    exact List.map_eq_nil_iff.1 hrows
  | ok i =>
    rw [hd] at hrows
    obtain ⟨row, hrow, hname⟩ := List.map_eq_singleton_iff.1 hrows
    obtain ⟨hmnemonic, hlength⟩ := Prod.mk.inj hname
    exact ⟨row, hrow, hmnemonic, hlength⟩

end Sys2Proof

/-! Two's-complement integers (00_scope.md R13, 40_ir_fold.md R146): the model's `&`, `|`, `^` and `~` are the library's `Int.land`,
`Int.lor`, `Int.xor` and `Int.lnot`, so their bits are known; each keeps the interval of R146. -/

namespace Sys2Proof.Machine

theorem xor_and_eq_ldiff (m n : Nat) : m ^^^ (m &&& n) = Nat.ldiff m n :=
  Nat.eq_of_testBit_eq fun k => by
    rw [Nat.testBit_xor, Nat.testBit_and, Nat.testBit_ldiff]
    cases m.testBit k <;> cases n.testBit k <;> rfl

theorem intAnd_eq_land (x y : Int) : intAnd x y = Int.land x y := by
  cases x <;> cases y <;> simp only [intAnd, Int.land, xor_and_eq_ldiff] <;> rfl

theorem intNot_eq_lnot (x : Int) : intNot x = Int.lnot x := by
  cases x <;> simp only [intNot, Int.lnot, Int.negSucc_eq, Int.ofNat_eq_natCast] <;> omega

theorem intOr_eq_lor (x y : Int) : intOr x y = Int.lor x y := by
  simp only [intOr, intNot_eq_lnot, intAnd_eq_land]
  cases x <;> cases y <;> rfl

theorem intXor_eq_xor (x y : Int) : intXor x y = Int.xor x y := by
  cases x <;> cases y <;> rfl

theorem testBit_intAnd (x y : Int) (k : Nat) : Int.testBit (intAnd x y) k = (Int.testBit x k && Int.testBit y k) := by
  rw [intAnd_eq_land, Int.testBit_land]

theorem testBit_intOr (x y : Int) (k : Nat) : Int.testBit (intOr x y) k = (Int.testBit x k || Int.testBit y k) := by
  rw [intOr_eq_lor, Int.testBit_lor]

theorem testBit_intXor (x y : Int) (k : Nat) : Int.testBit (intXor x y) k = (Int.testBit x k != Int.testBit y k) := by
  rw [intXor_eq_xor, Int.testBit_lxor, Bool.bne_eq_xor]

/-! ### The interval of R146 -/

theorem inIrRange_iff (n : Int) : inIrRange n = true ↔ -2147483648 ≤ n ∧ n ≤ 2147483647 := by
  simp only [inIrRange, Bool.and_eq_true, decide_eq_true_eq]

theorem inIrRange_ofNat (m : Nat) : inIrRange (.ofNat m) = true ↔ m < 2 ^ 31 := by
  rw [inIrRange_iff]
  simp only [Int.ofNat_eq_natCast]
  omega

theorem inIrRange_negSucc (m : Nat) : inIrRange (.negSucc m) = true ↔ m < 2 ^ 31 := by
  rw [inIrRange_iff]
  simp only [Int.negSucc_eq]
  omega

theorem inIrRange_intNot {x : Int} (hx : inIrRange x = true) : inIrRange (intNot x) = true := by
  simp only [inIrRange_iff, intNot] at *
  omega

theorem inIrRange_intAnd {x y : Int} (hx : inIrRange x = true) (hy : inIrRange y = true) :
    inIrRange (intAnd x y) = true := by
  cases x <;> cases y <;> simp only [intAnd, inIrRange_ofNat, inIrRange_negSucc] at *
  case ofNat.ofNat => exact Nat.and_lt_two_pow _ hy
  case ofNat.negSucc => exact Nat.xor_lt_two_pow hx (Nat.and_lt_two_pow _ hy)
  case negSucc.ofNat => exact Nat.xor_lt_two_pow hy (Nat.and_lt_two_pow _ hx)
  case negSucc.negSucc => exact Nat.or_lt_two_pow hx hy

theorem inIrRange_intOr {x y : Int} (hx : inIrRange x = true) (hy : inIrRange y = true) : inIrRange (intOr x y) = true :=
  inIrRange_intNot (inIrRange_intAnd (inIrRange_intNot hx) (inIrRange_intNot hy))

theorem inIrRange_intXor {x y : Int} (hx : inIrRange x = true) (hy : inIrRange y = true) :
    inIrRange (intXor x y) = true := by
  cases x <;> cases y <;> simp only [intXor, inIrRange_ofNat, inIrRange_negSucc] at * <;> exact Nat.xor_lt_two_pow hx hy

/-! ### Shifts by a count that is not negative -/

theorem shiftRight_natCast (x : Int) (k : Nat) : shiftRight x k = x / 2 ^ k := by
  simp only [shiftRight, intShr, Int.natCast_nonneg, if_true, Int.toNat_natCast]
  rw [Int.fdiv_eq_ediv_of_nonneg _ (Int.natCast_nonneg _), Int.natCast_pow]
  rfl

theorem shiftLeft_natCast (x : Int) (k : Nat) : shiftLeft x k = x * 2 ^ k := by
  simp only [shiftLeft, intShl, Int.natCast_nonneg, if_true, Int.toNat_natCast, Int.natCast_pow]
  rfl

theorem inIrRange_ediv_two_pow {x : Int} (hx : inIrRange x = true) (k : Nat) : inIrRange (x / 2 ^ k) = true := by
  have hpos : (0 : Int) < 2 ^ k := by positivity
  simp only [inIrRange_iff] at *
  constructor
  · exact (Int.le_ediv_iff_mul_le hpos).2 (by nlinarith)
  · exact Int.ediv_le_of_le_mul hpos (by nlinarith)

end Sys2Proof.Machine

/-! The folder and the evaluation of an expression node from what its operands give (40_ir_fold.md R145 to R147, R161 to R165). -/

namespace Sys2Proof.Machine

/-! ### The folder -/

/-- The two shapes that `fold` changes, and the literal each becomes; it leaves every other expression (R161 to R164). -/
theorem fold_cases (e : Expr) :
    (∃ x y : Int, e = .binary .shr (numLit x) (numLit y) ∧ fold e = numLit (shiftRight x y))
    ∨ (∃ x y : Int, e = .binary .band (numLit x) (numLit y) ∧ fold e = numLit (intAnd x y)) ∨ fold e = e := by
  unfold fold
  split
  · exact .inl ⟨_, _, rfl, rfl⟩
  · exact .inr (.inl ⟨_, _, rfl, rfl⟩)
  · exact .inr (.inr rfl)

theorem evalExpr_numLit (n : Int) (c : Ctx) : evalExpr (numLit n) c = rangedResult (numLit n) n c := by
  simp only [numLit, evalExpr, orRange_num]

/-- A `Binary` that folds to a literal evaluates as that literal (R165). -/
theorem evalExpr_binary_of_fold_literal {op : BinOp} {l r : Expr} {n : Int} (h : fold (.binary op l r) = numLit n) (c : Ctx) :
    evalExpr (.binary op l r) c = evalExpr (numLit n) c := by
  simp only [evalExpr, h, numLit]

theorem evalExpr_fold (e : Expr) (c : Ctx) : evalExpr (fold e) c = evalExpr e c := by
  obtain ⟨x, y, rfl, h⟩ | ⟨x, y, rfl, h⟩ | h := fold_cases e
  · rw [h, evalExpr_binary_of_fold_literal h]
  · rw [h, evalExpr_binary_of_fold_literal h]
  · rw [h]

theorem fold_fold (e : Expr) : fold (fold e) = fold e := by
  obtain ⟨x, y, _, h⟩ | ⟨x, y, _, h⟩ | h := fold_cases e
  · rw [h]
    rfl
  · rw [h]
    rfl
  · rw [h, h]

/-- Settles O54, by the three shapes of `fold_cases`. -/
theorem foldLaws : Obligations.FoldLaws := by
  unfold Obligations.FoldLaws
  refine ⟨⟨fun x y => ⟨rfl, rfl⟩, fun e he => ?_⟩, fun e c => ⟨fold_fold e, evalExpr_fold e c⟩⟩
  obtain ⟨x, y, h, _⟩ | ⟨x, y, h, _⟩ | h := fold_cases e
  · exact absurd h (he x y).1
  · exact absurd h (he x y).2
  · exact h

/-! ### A node whose operands have values -/

theorem rangedResult_of_inIrRange {n : Int} (h : inIrRange n = true) (node : Expr) (c : Ctx) :
    rangedResult node n c = .ok (.num n, c) :=
  if_pos ((inIrRange_iff n).1 h)

theorem orRange_of_inIrRange {v : Value} (h : v.inIrRange = true) (node : Expr) (c : Ctx) :
    orRange node (some v) c = .ok (v, c) :=
  if_pos h

/-! A `Binary` that `fold` leaves: operands left to right, then the operator, then the range (R145 to R147). -/

theorem evalExpr_binary_of_left_fault {op : BinOp} {l r : Expr} {c : Ctx} {f : Fault}
    (hf : fold (.binary op l r) = .binary op l r) (hl : evalExpr l c = .error f) : evalExpr (.binary op l r) c = .error f := by
  simp only [evalExpr, hf, hl]

theorem evalExpr_binary_of_right_fault {op : BinOp} {l r : Expr} {c d : Ctx} {v : Value} {f : Fault}
    (hf : fold (.binary op l r) = .binary op l r) (hl : evalExpr l c = .ok (v, d)) (hr : evalExpr r d = .error f) :
    evalExpr (.binary op l r) c = .error f := by
  simp only [evalExpr, hf, hl, hr]

theorem evalExpr_binary_of_not_folded {op : BinOp} {l r : Expr} {c d e : Ctx} {x y : Value}
    (hf : fold (.binary op l r) = .binary op l r) (hl : evalExpr l c = .ok (x, d)) (hr : evalExpr r d = .ok (y, e)) :
    evalExpr (.binary op l r) c = orRange (.binary op l r) (binaryValue op x y) e := by
  simp only [evalExpr, hf, hl, hr]

theorem evalExpr_literal_ok {v w : Value} {c d : Ctx} (h : evalExpr (.literal v) c = .ok (w, d)) :
    v = w ∧ d = c ∧ w.inIrRange = true := by
  unfold evalExpr at h
  obtain ⟨hv, hd, hr⟩ := orRange_ok h
  exact ⟨Option.some.inj hv, hd, hr⟩

/-- A `Binary` of two values. The literals that `fold` combines are the operands' values, so it is one law for both shapes; only a folded
result outside the range names another node, and that is for `>>` and `&` alone. -/
theorem evalExpr_binary {op : BinOp} {l r : Expr} {c d e : Ctx} {x y : Value} (hl : evalExpr l c = .ok (x, d))
    (hr : evalExpr r d = .ok (y, e)) (hv : ∀ v, op = .shr ∨ op = .band → binaryValue op x y = some v → v.inIrRange = true) :
    evalExpr (.binary op l r) c = orRange (.binary op l r) (binaryValue op x y) e := by
  have folded {n m k : Int} (hop : op = .shr ∨ op = .band) (hl' : l = numLit n) (hr' : r = numLit m)
      (hk : binaryValue op (.num n) (.num m) = some (.num k)) (h : fold (.binary op l r) = numLit k) :
      evalExpr (.binary op l r) c = orRange (.binary op l r) (binaryValue op x y) e := by
    rw [hl'] at hl
    rw [hr'] at hr
    obtain ⟨rfl, rfl, -⟩ := evalExpr_literal_ok hl
    obtain ⟨rfl, rfl, -⟩ := evalExpr_literal_ok hr
    have hrange := hv _ hop hk
    rw [evalExpr_binary_of_fold_literal h, hk, evalExpr_numLit, rangedResult_of_inIrRange hrange, orRange_of_inIrRange hrange]
  obtain ⟨n, m, hb, h⟩ | ⟨n, m, hb, h⟩ | h := fold_cases (.binary op l r)
  · obtain ⟨rfl, rfl, rfl⟩ := Expr.binary.inj hb
    exact folded (.inl rfl) rfl rfl rfl h
  · obtain ⟨rfl, rfl, rfl⟩ := Expr.binary.inj hb
    exact folded (.inr rfl) rfl rfl rfl h
  · exact evalExpr_binary_of_not_folded h hl hr

theorem evalExpr_unary {op : UnOp} {a : Expr} {c d : Ctx} {x : Value} (h : evalExpr a c = .ok (x, d)) :
    evalExpr (.unary op a) c = orRange (.unary op a) (unaryValue op x) d := by
  simp only [evalExpr, h]

theorem evalExpr_conditional {t x y : Expr} {c d : Ctx} {v : Value} (h : evalExpr t c = .ok (v, d)) :
    evalExpr (.conditional t x y) c = if v.truthy then evalExpr x d else evalExpr y d := by
  simp only [evalExpr, h]

theorem evalExpr_and {l r : Expr} {c d : Ctx} {v : Value} (h : evalExpr l c = .ok (v, d)) :
    evalExpr (.logical .and l r) c = if v.truthy then evalExpr r d else .ok (v, d) := by
  simp only [evalExpr, h]

theorem evalExpr_or {l r : Expr} {c d : Ctx} {v : Value} (h : evalExpr l c = .ok (v, d)) :
    evalExpr (.logical .or l r) c = if v.truthy then .ok (v, d) else evalExpr r d := by
  simp only [evalExpr, h]

end Sys2Proof.Machine


/-! The interval of 40_ir_fold.md R146 holds of every value that an evaluation yields. -/

namespace Sys2Proof.Machine

theorem map_ok {α β : Type} {e : Eval α} {g : α → β} {b : β} (h : e.map g = .ok b) : ∃ a, e = .ok a ∧ g a = b := by
  cases e with
  | error r => cases h
  | ok a => exact ⟨a, rfl, Except.ok.inj h⟩

theorem flipFlop_inIrRange (v : BitVec 1) : (Value.num v.toNat).inIrRange = true := by
  have := v.isLt
  simp only [Value.inIrRange, inIrRange_iff]
  omega

theorem irReg_inIrRange (s : State) (reg : IrReg) : (s.irReg reg).inIrRange = true := by
  cases reg
  case sp | pc => exact wordValue_inIrRange _
  case iff1 | iff2 => exact flipFlop_inIrRange _
  all_goals exact byteValue_inIrRange _

theorem bit_inIrRange (n : Fin 8) : (Value.num (2 ^ n.val : Nat)).inIrRange = true := by
  revert n
  decide

theorem evalExpr_register (reg : IrReg) (c : Ctx) : evalExpr (.register reg) c = .ok (c.st.irReg reg, c) := by
  simp only [evalExpr]

theorem evalExpr_bit (n : Fin 8) (c : Ctx) : evalExpr (.bit n) c = .ok (.num (2 ^ n.val : Nat), c) := by
  simp only [evalExpr]

/-- Where the primitive answers, its value is in the interval. -/
def YieldsInRange (e : Eval (Value × State)) : Prop := ∀ r, e = .ok r → r.1.inIrRange = true

namespace YieldsInRange

theorem ok {r : Value × State} (h : r.1.inIrRange = true) : YieldsInRange (.ok r) := fun _ he => Except.ok.inj he ▸ h

theorem error (f : Fault) : YieldsInRange (.error f) := fun _ h => by cases h

theorem effect (e : Eval State) : YieldsInRange (effect e) := fun r h => by
  obtain ⟨s, -, rfl⟩ := map_ok h
  exact byteValue_inIrRange 0

theorem byte (e : Eval Byte) (s : State) : YieldsInRange (e.map fun x => (byteValue x, s)) := fun r h => by
  obtain ⟨x, -, rfl⟩ := map_ok h
  exact byteValue_inIrRange x

theorem word (e : Eval Word) (s : State) : YieldsInRange (e.map fun x => (wordValue x, s)) := fun r h => by
  obtain ⟨x, -, rfl⟩ := map_ok h
  exact wordValue_inIrRange x

theorem needU8 {node : Expr} {v : Value} {k : Byte → Eval (Value × State)} (h : ∀ x, YieldsInRange (k x)) :
    YieldsInRange (needU8 node v k) := by
  unfold Machine.needU8
  split
  · exact h _
  · exact error _

theorem needU16 {node : Expr} {v : Value} {k : Word → Eval (Value × State)} (h : ∀ x, YieldsInRange (k x)) :
    YieldsInRange (needU16 node v k) := by
  unfold Machine.needU16
  split
  · exact h _
  · exact error _

end YieldsInRange

/-- A primitive yields a byte, a word, or the 0 of one without a result (41_alu_flags.md R202; log entry 27). -/
theorem callPrim_yieldsInRange (node : Expr) (s : State) (p : Prim) (vs : List Value) :
    YieldsInRange (callPrim node s p vs) := by
  unfold callPrim
  split
  case h_15 => exact .needU16 fun _ => .needU16 fun _ => .ok (wordValue_inIrRange _)
  all_goals
    simp [YieldsInRange.ok, YieldsInRange.error, YieldsInRange.effect, YieldsInRange.byte, YieldsInRange.word,
      YieldsInRange.needU8, YieldsInRange.needU16, byteValue_inIrRange, wordValue_inIrRange]

theorem assign_inIrRange {c d : Ctx} {node : Expr} {target : Target} {v : Value} (h : c.assign node target v = .ok d) :
    v.inIrRange = true := by
  unfold Ctx.assign at h
  split at h
  · assumption
  · cases h

/-- The value of an assignment is the value it writes (R147). -/
theorem evalExpr_assign_ok {op : AssignOp} {target : Target} {e : Expr} {c d : Ctx} {v : Value}
    (h : evalExpr (.assign op target e) c = .ok (v, d)) : ∃ c1 : Ctx, c1.assign (.assign op target e) target v = .ok d := by
  unfold evalExpr at h
  split at h
  · cases h
  · split at h
    · obtain ⟨c2, ha, hb⟩ := map_ok h
      cases hb
      exact ⟨_, ha⟩
    · cases h
    · split at h
      · obtain ⟨c2, ha, hb⟩ := map_ok h
        cases hb
        exact ⟨_, ha⟩
      · cases h

/-- R146: `Conditional`, `&&` and `||` yield the value of a part; every other node holds its own value against the interval, or yields a
byte, a word or a flip-flop. -/
theorem evalExpr_inIrRange : (e : Expr) → {c d : Ctx} → {v : Value} → evalExpr e c = .ok (v, d) → v.inIrRange = true
  | .literal _, _, _, _, h => (evalExpr_literal_ok h).2.2
  | .bit n, _, _, _, h => by
    rw [evalExpr_bit] at h
    cases h
    exact bit_inIrRange n
  | .register reg, c, _, _, h => by
    rw [evalExpr_register] at h
    cases h
    exact irReg_inIrRange c.st reg
  | .identifier x, _, _, _, h => by
    unfold evalExpr at h
    obtain ⟨w, hw, hv⟩ := map_ok h
    cases hv
    exact (ident_ok hw).2
  | .binary op l r, _, _, _, h => by
    unfold evalExpr at h
    split at h
    · exact (orRange_ok h).2.2
    · split at h
      · cases h
      · split at h
        · cases h
        · exact (orRange_ok h).2.2
  | .unary op a, _, _, _, h => by
    unfold evalExpr at h
    split at h
    · cases h
    · exact (orRange_ok h).2.2
  | .logical op l r, c, d, v, h => by
    have hl (x : Value) (c1 : Ctx) (hx : evalExpr l c = .ok (x, c1)) : x.inIrRange = true := evalExpr_inIrRange l hx
    have hr (c1 : Ctx) (hy : evalExpr r c1 = .ok (v, d)) : v.inIrRange = true := evalExpr_inIrRange r hy
    cases hx : evalExpr l c with
    | error f => cases op <;> simp [evalExpr, hx] at h
    | ok p =>
      cases op
      · rw [evalExpr_and hx] at h
        split at h
        · exact hr _ h
        · cases h; exact hl _ _ hx
      · rw [evalExpr_or hx] at h
        split at h
        · cases h; exact hl _ _ hx
        · exact hr _ h
  | .conditional t x y, _, _, _, h => by
    unfold evalExpr at h
    split at h
    · cases h
    · split at h
      · exact evalExpr_inIrRange x h
      · exact evalExpr_inIrRange y h
  | .index t k, _, _, _, h => by
    unfold evalExpr at h
    split at h
    · cases h
    · exact (orRange_ok h).2.2
  | .call p args, _, _, _, h => by
    unfold evalExpr at h
    split at h
    · cases h
    · obtain ⟨r, hr, hv⟩ := map_ok h
      cases hv
      exact callPrim_yieldsInRange _ _ _ _ r hr
  | .assign op target e, _, _, _, h => by
    obtain ⟨c1, ha⟩ := evalExpr_assign_ok h
    exact assign_inIrRange ha

end Sys2Proof.Machine

/-! What each IR node gives (40_ir_fold.md R145 to R148): operators, assignments, statements. -/

namespace Sys2Proof.Machine

/-! ### Operators on numbers -/

section
variable {l r : Expr} {c d e : Ctx} {x y : Int}

/-- A `Binary` of two numbers, where the operator's value is in the range. -/
theorem evalExpr_binary_value {op : BinOp} {v : Value} (hl : evalExpr l c = .ok (.num x, d)) (hr : evalExpr r d = .ok (.num y, e))
    (hv : binaryValue op (.num x) (.num y) = some v) (hrange : v.inIrRange = true) :
    evalExpr (.binary op l r) c = .ok (v, e) := by
  rw [evalExpr_binary hl hr fun w _ hw => Option.some.inj (hv.symm.trans hw) ▸ hrange, hv, orRange_of_inIrRange hrange]

theorem evalExpr_band (hl : evalExpr l c = .ok (.num x, d)) (hr : evalExpr r d = .ok (.num y, e)) :
    evalExpr (.binary .band l r) c = .ok (.num (intAnd x y), e) :=
  evalExpr_binary_value hl hr rfl (inIrRange_intAnd (evalExpr_inIrRange l hl) (evalExpr_inIrRange r hr))

theorem evalExpr_bor (hl : evalExpr l c = .ok (.num x, d)) (hr : evalExpr r d = .ok (.num y, e)) :
    evalExpr (.binary .bor l r) c = .ok (.num (intOr x y), e) :=
  evalExpr_binary_value hl hr rfl (inIrRange_intOr (evalExpr_inIrRange l hl) (evalExpr_inIrRange r hr))

theorem evalExpr_bxor (hl : evalExpr l c = .ok (.num x, d)) (hr : evalExpr r d = .ok (.num y, e)) :
    evalExpr (.binary .bxor l r) c = .ok (.num (intXor x y), e) :=
  evalExpr_binary_value hl hr rfl (inIrRange_intXor (evalExpr_inIrRange l hl) (evalExpr_inIrRange r hr))

theorem evalExpr_shr (k : Nat) (hl : evalExpr l c = .ok (.num x, d)) (hr : evalExpr r d = .ok (.num k, e)) :
    evalExpr (.binary .shr l r) c = .ok (.num (x / 2 ^ k), e) :=
  evalExpr_binary_value hl hr (congrArg (fun n => some (Value.num n)) (shiftRight_natCast x k))
    (inIrRange_ediv_two_pow (evalExpr_inIrRange l hl) k)

/-- A remainder is less than its divisor, which is in the range. -/
theorem evalExpr_mod (hx : 0 ≤ x) (hy : 0 < y) (hl : evalExpr l c = .ok (.num x, d)) (hr : evalExpr r d = .ok (.num y, e)) :
    evalExpr (.binary .mod l r) c = .ok (.num (x % y), e) := by
  have hrange : inIrRange (x % y) = true := by
    have hyr := (inIrRange_iff y).1 (evalExpr_inIrRange r hr)
    have h0 := Int.emod_nonneg x hy.ne'
    have h1 := Int.emod_lt_of_pos x hy
    rw [inIrRange_iff]
    omega
  exact evalExpr_binary_value hl hr (if_pos ⟨hx, hy⟩) hrange

/-- The operators that `fold` never combines. -/
theorem evalExpr_binary_of_ne {op : BinOp} {v w : Value} (hshr : op ≠ .shr) (hband : op ≠ .band) (hl : evalExpr l c = .ok (v, d))
    (hr : evalExpr r d = .ok (w, e)) : evalExpr (.binary op l r) c = orRange (.binary op l r) (binaryValue op v w) e :=
  evalExpr_binary hl hr fun _ h => absurd h (not_or.2 ⟨hshr, hband⟩)

theorem evalExpr_add (hl : evalExpr l c = .ok (.num x, d)) (hr : evalExpr r d = .ok (.num y, e)) :
    evalExpr (.binary .add l r) c = rangedResult (.binary .add l r) (x + y) e :=
  (evalExpr_binary_of_ne (op := .add) nofun nofun hl hr).trans (orRange_num _ _ _)

theorem evalExpr_sub (hl : evalExpr l c = .ok (.num x, d)) (hr : evalExpr r d = .ok (.num y, e)) :
    evalExpr (.binary .sub l r) c = rangedResult (.binary .sub l r) (x - y) e :=
  (evalExpr_binary_of_ne (op := .sub) nofun nofun hl hr).trans (orRange_num _ _ _)

theorem evalExpr_mul (hl : evalExpr l c = .ok (.num x, d)) (hr : evalExpr r d = .ok (.num y, e)) :
    evalExpr (.binary .mul l r) c = rangedResult (.binary .mul l r) (x * y) e :=
  (evalExpr_binary_of_ne (op := .mul) nofun nofun hl hr).trans (orRange_num _ _ _)

theorem evalExpr_shl (k : Nat) (hl : evalExpr l c = .ok (.num x, d)) (hr : evalExpr r d = .ok (.num k, e)) :
    evalExpr (.binary .shl l r) c = rangedResult (.binary .shl l r) (x * 2 ^ k) e := by
  rw [evalExpr_binary_of_ne (op := .shl) nofun nofun hl hr, binaryValue, shiftLeft_natCast, orRange_num]

theorem evalExpr_bnot (h : evalExpr l c = .ok (.num x, d)) : evalExpr (.unary .bnot l) c = .ok (.num (-x - 1), d) :=
  (evalExpr_unary h).trans (orRange_of_inIrRange (v := .num _) (inIrRange_intNot (evalExpr_inIrRange l h)) _ _)

theorem evalExpr_neg (h : evalExpr l c = .ok (.num x, d)) :
    evalExpr (.unary .neg l) c = rangedResult (.unary .neg l) (-x) d :=
  (evalExpr_unary h).trans (orRange_num _ _ _)

end

theorem evalExpr_unary_of_fault {op : UnOp} {a : Expr} {c : Ctx} {f : Fault} (h : evalExpr a c = .error f) :
    evalExpr (.unary op a) c = .error f := by
  simp only [evalExpr, h]

/-! ### Temporaries -/

@[simp] theorem TempEnv.get_set_same (ρ : TempEnv) (t : Temp) (v : Value) : (ρ.set t v).get t = some v := by
  cases t <;> rfl

theorem evalExpr_tmpE_of_none {t : Temp} {c : Ctx} (h : c.env.get t = none) :
    evalExpr (tmpE t) c = .error (.irUnbound (tmpE t)) := by
  simp only [tmpE, evalExpr, Ctx.ident, Ctx.held, h, Except.map]

theorem evalExpr_tmpE {t : Temp} {c : Ctx} {v : Value} (h : c.env.get t = some v) (hv : v.inIrRange = true) :
    evalExpr (tmpE t) c = .ok (v, c) := by
  simp only [tmpE, evalExpr, Ctx.ident, Ctx.held, h, hv, if_true, Except.map]

theorem runStmt_varDecl {t : Temp} {e : Expr} {c d : Ctx} {v : Value} (h : evalExpr e c = .ok (v, d)) :
    runStmt (.varDecl t e) c = .ok (false, { d with env := d.env.set t v }) := by
  simp only [runStmt, h]

/-! ### Assignments -/

theorem u8_num {n : Int} (h0 : 0 ≤ n) (h1 : n ≤ 255) : (Value.num n).u8 = some (BitVec.ofInt 8 n) :=
  if_pos ⟨h0, Int.lt_add_one_of_le h1⟩

theorem u16_num {n : Int} (h0 : 0 ≤ n) (h1 : n ≤ 65535) : (Value.num n).u16 = some (BitVec.ofInt 16 n) :=
  if_pos ⟨h0, Int.lt_add_one_of_le h1⟩

theorem u8_num_eq_none {n : Int} (h : ¬(0 ≤ n ∧ n ≤ 255)) : (Value.num n).u8 = none :=
  if_neg fun hn => h ⟨hn.1, Int.le_of_lt_add_one hn.2⟩

theorem u16_num_eq_none {n : Int} (h : ¬(0 ≤ n ∧ n ≤ 65535)) : (Value.num n).u16 = none :=
  if_neg fun hn => h ⟨hn.1, Int.le_of_lt_add_one hn.2⟩

theorem byteValue_ofInt {n : Int} (h0 : 0 ≤ n) (h1 : n ≤ 255) : byteValue (BitVec.ofInt 8 n) = .num n := by
  simp only [byteValue, BitVec.toNat_ofInt, Value.num.injEq]
  omega

theorem wordValue_ofInt {n : Int} (h0 : 0 ≤ n) (h1 : n ≤ 65535) : wordValue (BitVec.ofInt 16 n) = .num n := by
  simp only [wordValue, BitVec.toNat_ofInt, Value.num.injEq]
  omega

/-- A register holds a number that its width admits (R147, 10_state.md R42). -/
theorem setIrReg_of_le (s : State) {reg : IrReg} {bound n : Int} (hb : (Target.register reg).limit = some bound) (h0 : 0 ≤ n)
    (h1 : n ≤ bound) : ∃ t, s.setIrReg reg (.num n) = some t ∧ t.irReg reg = .num n := by
  cases reg <;> cases hb
  case sp | pc => rw [State.setIrReg, u16_num h0 h1]; exact ⟨_, rfl, wordValue_ofInt h0 h1⟩
  case iff1 | iff2 =>
    obtain rfl | rfl : n = 0 ∨ n = 1 := by omega
    · exact ⟨_, rfl, rfl⟩
    · exact ⟨_, rfl, rfl⟩
  all_goals rw [State.setIrReg, u8_num h0 h1]; exact ⟨_, rfl, byteValue_ofInt h0 h1⟩

theorem setIrReg_of_not_le (s : State) {reg : IrReg} {bound n : Int} (hb : (Target.register reg).limit = some bound)
    (hn : ¬(0 ≤ n ∧ n ≤ bound)) : s.setIrReg reg (.num n) = none := by
  cases reg <;> cases hb
  case sp | pc => rw [State.setIrReg, u16_num_eq_none hn]; rfl
  case iff1 | iff2 =>
    have h0 : Value.num n ≠ .num 0 := fun h => by cases h; omega
    have h1 : Value.num n ≠ .num 1 := fun h => by cases h; omega
    rw [State.setIrReg, if_neg h0, if_neg h1]
  all_goals rw [State.setIrReg, u8_num_eq_none hn]; rfl

theorem irReg_num (s : State) (reg : IrReg) : ∃ n, s.irReg reg = .num n := by
  cases reg <;> exact ⟨_, rfl⟩

theorem targetValue_sp (c : Ctx) : c.targetValue (.identifier (.env .sp)) = .ok (wordValue c.st.sp) := by
  simp only [Ctx.targetValue, Ctx.ident, Ctx.held, State.envScalar, wordValue_inIrRange, if_true]

theorem targetValue_pc (c : Ctx) : c.targetValue (.identifier (.env .pc)) = .ok (wordValue c.st.pc) := by
  simp only [Ctx.targetValue, Ctx.ident, Ctx.held, State.envScalar, wordValue_inIrRange, if_true]

/-- A target with a limit is a register, or `SP` or `PC` by its scalar's name, which is the register's. -/
theorem Target.limit_eq_some {target : Target} {bound : Int} (h : target.limit = some bound) :
    (∃ reg, target = .register reg) ∨ (target = .identifier (.env .sp) ∧ bound = 65535)
      ∨ (target = .identifier (.env .pc) ∧ bound = 65535) := by
  cases target with
  | register reg => exact .inl ⟨reg, rfl⟩
  | identifier x =>
    cases x with
    | tmp t => cases h
    | env x =>
      cases x <;> cases h
      · exact .inr (.inr ⟨rfl, rfl⟩)
      · exact .inr (.inl ⟨rfl, rfl⟩)

section
variable {target : Target} {bound : Int} (hb : target.limit = some bound)
include hb

theorem targetValue_num (c : Ctx) : ∃ old, c.targetValue target = .ok (.num old) := by
  obtain ⟨reg, rfl⟩ | ⟨rfl, -⟩ | ⟨rfl, -⟩ := Target.limit_eq_some hb
  · obtain ⟨n, hn⟩ := irReg_num c.st reg
    exact ⟨n, congrArg Except.ok hn⟩
  · exact ⟨_, targetValue_sp c⟩
  · exact ⟨_, targetValue_pc c⟩

/-- A number within the target's width is written and read back, and no temporary changes. -/
theorem assign_of_le (c : Ctx) (node : Expr) {n : Int} (hr : inIrRange n = true) (h0 : 0 ≤ n) (h1 : n ≤ bound) :
    ∃ t, c.assign node target (.num n) = .ok t ∧ t.targetValue target = .ok (.num n) ∧ t.env = c.env := by
  have hv : (Value.num n).inIrRange = true := hr
  unfold Ctx.assign
  rw [if_pos hv]
  obtain ⟨reg, rfl⟩ | ⟨rfl, rfl⟩ | ⟨rfl, rfl⟩ := Target.limit_eq_some hb
  · obtain ⟨t, ht, hn⟩ := setIrReg_of_le c.st hb h0 h1
    simp only [ht, Ctx.withState]
    exact ⟨_, rfl, congrArg Except.ok hn, rfl⟩
  · simp only [State.setEnvScalar, u16_num h0 h1, Option.map, Ctx.withState]
    exact ⟨_, rfl, (targetValue_sp _).trans (congrArg Except.ok (wordValue_ofInt h0 h1)), rfl⟩
  · simp only [State.setEnvScalar, u16_num h0 h1, Option.map, Ctx.withState]
    exact ⟨_, rfl, (targetValue_pc _).trans (congrArg Except.ok (wordValue_ofInt h0 h1)), rfl⟩

theorem assign_of_not_le (c : Ctx) (node : Expr) {n : Int} (hn : ¬(0 ≤ n ∧ n ≤ bound)) :
    c.assign node target (.num n) = .error (.irRange node) := by
  unfold Ctx.assign
  split
  · obtain ⟨reg, rfl⟩ | ⟨rfl, rfl⟩ | ⟨rfl, rfl⟩ := Target.limit_eq_some hb
    · simp only [setIrReg_of_not_le c.st hb hn, Ctx.withState]
    · simp only [State.setEnvScalar, u16_num_eq_none hn, Option.map, Ctx.withState]
    · simp only [State.setEnvScalar, u16_num_eq_none hn, Option.map, Ctx.withState]
  · rfl

theorem limit_inIrRange {n : Int} (h0 : 0 ≤ n) (h1 : n ≤ bound) : inIrRange n = true := by
  have hbound : bound ≤ 65535 := by
    obtain ⟨reg, rfl⟩ | ⟨-, rfl⟩ | ⟨-, rfl⟩ := Target.limit_eq_some hb
    · cases reg <;> cases hb <;> decide
    · exact le_rfl
    · exact le_rfl
  rw [inIrRange_iff]
  omega

end

theorem assignValue_num (op : AssignOp) (old n : Int) :
    assignValue op (.num old) (.num n) = some (.num (assignedNum op old n)) := by
  cases op <;> rfl

theorem evalExpr_assign {op : AssignOp} {target : Target} {e : Expr} {c d : Ctx} {v old w : Value}
    (he : evalExpr e c = .ok (v, d)) (hold : d.targetValue target = .ok old) (hw : assignValue op old v = some w) :
    evalExpr (.assign op target e) c = (d.assign (.assign op target e) target w).map fun t => (w, t) := by
  cases op
  case set =>
    cases hw
    simp only [evalExpr, he]
  all_goals simp only [evalExpr, he, hold, hw]

end Sys2Proof.Machine

/-! The evaluation of the IR, assembled (40_ir_fold.md R145 to R148). -/

namespace Sys2Proof.Machine

/-- The truth of a value, as `If` says it (R148). -/
theorem truthy_eq_false_iff (v : Value) : v.truthy = false ↔ v = .bool false ∨ v = .num 0 := by
  cases v with
  | num n => simp [Value.truthy]
  | bool b => simp [Value.truthy]

theorem runStmt_ifElse {t : Expr} {s : Stmt} {alt : Stmts} {c d : Ctx} {v : Value} (h : evalExpr t c = .ok (v, d)) :
    runStmt (.ifElse t s alt) c = if v.truthy then runStmt s d else runStmts alt d := by
  simp only [runStmt, h]

theorem runStmts_cons_returned {s : Stmt} {c d : Ctx} (h : runStmt s c = .ok (true, d)) (rest : Stmts) :
    runStmts (.cons s rest) c = .ok (true, d) := by
  simp only [runStmts, h]

theorem runStmts_cons_next {s : Stmt} {c d : Ctx} (h : runStmt s c = .ok (false, d)) (rest : Stmts) :
    runStmts (.cons s rest) c = runStmts rest d := by
  simp only [runStmts, h]

theorem runStmts_cons_fault {s : Stmt} {c : Ctx} {f : Fault} (h : runStmt s c = .error f) (rest : Stmts) :
    runStmts (.cons s rest) c = .error f := by
  simp only [runStmts, h]

theorem runStmt_exprStmt (e : Expr) (c : Ctx) : runStmt (.exprStmt e) c = (evalExpr e c).map fun r => (false, r.2) := by
  simp only [runStmt]

theorem runStmt_ret_some (e : Expr) (c : Ctx) : runStmt (.ret (some e)) c = (evalExpr e c).map fun r => (true, r.2) := by
  simp only [runStmt]

theorem runStmt_ret_none (c : Ctx) : runStmt (.ret none) c = .ok (true, c) := by
  simp only [runStmt]

theorem runStmt_block (ss : Stmts) (c : Ctx) : runStmt (.block ss) c = runStmts ss c := by
  simp only [runStmt]

/-- The clause of `If`, by the two values that are not true. -/
theorem runStmt_ifElse_eq {t : Expr} {s : Stmt} {alt : Stmts} {c d : Ctx} {v : Value} (h : evalExpr t c = .ok (v, d)) :
    runStmt (.ifElse t s alt) c = if v = .bool false ∨ v = .num 0 then runStmts alt d else runStmt s d := by
  rw [runStmt_ifElse h]
  by_cases hv : v = .bool false ∨ v = .num 0
  · rw [if_pos hv, (truthy_eq_false_iff v).2 hv, if_neg Bool.false_ne_true]
  · rw [if_neg hv, if_pos (Bool.eq_true_of_not_eq_false (mt (truthy_eq_false_iff v).1 hv))]

/-- Settles O56, clause by clause from the lemmas about each node and statement. -/
theorem irEvaluation : Obligations.IrEvaluation := by
  unfold Obligations.IrEvaluation
  refine ⟨⟨fun x y k => ⟨testBit_intAnd x y k, testBit_intOr x y k, testBit_intXor x y k⟩,
      fun e c d v => evalExpr_inIrRange e, evalExpr_numLit⟩, fun l r c d e x y hl hr => ?operators,
    fun e c d x h => ⟨evalExpr_bnot h, evalExpr_neg h⟩,
    fun op un l r c d v f hf => ⟨fun hl => ?_, evalExpr_binary_of_right_fault hf⟩,
    fun l r c d => ⟨fun h => ?isFalse, fun h => ?isTrue⟩, fun t c => evalExpr_tmpE_of_none,
    fun t e c d v h => ⟨runStmt_varDecl h, ?_⟩,
    fun op target bound e c d n hb he => ?assignment, fun e s alt rest c d => ?statements⟩
  case operators =>
    have ne {op : BinOp} (hshr : op ≠ .shr) (hband : op ≠ .band) := evalExpr_binary_of_ne hshr hband hl hr
    refine ⟨evalExpr_add hl hr, evalExpr_sub hl hr, evalExpr_mul hl hr, fun hx hy => evalExpr_mod hx hy hl hr,
      evalExpr_band hl hr, evalExpr_bor hl hr, evalExpr_bxor hl hr, fun k hk => ?_, ?_⟩
    · subst hk
      exact ⟨evalExpr_shl k hl hr, evalExpr_shr k hl hr⟩
    · exact ⟨ne nofun nofun, ne nofun nofun, ne nofun nofun, ne nofun nofun, ne nofun nofun, ne nofun nofun⟩
  case isFalse =>
    exact ⟨evalExpr_unary h, evalExpr_and h, evalExpr_or h, fun _ => evalExpr_conditional h⟩
  case isTrue =>
    exact ⟨evalExpr_unary h, evalExpr_or h, evalExpr_and h, fun _ => evalExpr_conditional h⟩
  case assignment =>
    obtain ⟨old, hold⟩ := targetValue_num hb d
    have hassign := evalExpr_assign he hold (assignValue_num op old n)
    refine ⟨old, hold, fun ⟨h0, h1⟩ => ?_, fun hn => ?_⟩
    · obtain ⟨t, ht, hvalue, henv⟩ := assign_of_le hb d (.assign op target e) (limit_inIrRange hb h0 h1) h0 h1
      exact ⟨t, hassign.trans (congrArg (Except.map _) ht), hvalue, henv⟩
    · exact hassign.trans (congrArg (Except.map _) (assign_of_not_le hb d _ hn))
  case statements =>
    refine ⟨fun v h => ⟨runStmt_ifElse_eq h, runStmts_cons_next ?_ rest, runStmts_cons_returned ?_ rest⟩,
      runStmts_cons_returned (runStmt_ret_none c) rest, fun h => runStmts_cons_returned h rest, fun h => runStmts_cons_next h rest,
      runStmt_block rest c, fun f h => runStmts_cons_fault ?_ rest⟩
    · rw [runStmt_exprStmt, h]; rfl
    · rw [runStmt_ret_some, h]; rfl
    · rw [runStmt_ret_some, h]; rfl
  · exact ⟨evalExpr_binary_of_left_fault hf hl, evalExpr_unary_of_fault hl⟩
  · exact evalExpr_tmpE (TempEnv.get_set_same _ _ _) (evalExpr_inIrRange e h)

end Sys2Proof.Machine

/-! A fragment run in the form in which `exec` is written: each evaluation followed by the rest `k` of the instruction, a fault ending it.
In this form a memory access of the IR is the access of Machine/Ops.lean, and no proof about a row splits on an address (40_ir_fold.md
R147 to R149). -/

namespace Sys2Proof.Machine

/-- The rest of an instruction after an evaluation. -/
def andThen {α : Type} (r : Eval α) (k : α → Outcome State) : Outcome State :=
  match r with
  | .error f => .fault f
  | .ok a => k a

/-- The rest of an instruction after an expression. -/
def evalThen (e : Expr) (c : Ctx) (k : Value → Ctx → Outcome State) : Outcome State :=
  andThen (evalExpr e c) fun r => k r.1 r.2

/-- The rest of an instruction after an argument list. -/
def argsThen (es : List Expr) (c : Ctx) (k : List Value → Ctx → Outcome State) : Outcome State :=
  andThen (evalArgs (Args.ofList es) c) fun r => k r.1 r.2

/-- The rest of an instruction after a list of statements. -/
def runThen (ss : List Stmt) (c : Ctx) (k : Bool → Ctx → Outcome State) : Outcome State :=
  andThen (runStmts (Stmts.ofList ss) c) fun r => k r.1 r.2

/-- The end of a fragment (10_state.md R55). -/
def finish (len : Nat) (_ : Bool) (c : Ctx) : Outcome State := if c.jumped then .next c.st else fallThrough c.st len

@[simp] theorem finish_fallThrough (len : Nat) (b : Bool) (s : State) (ρ : TempEnv) :
    finish len b ⟨s, ρ, false⟩ = fallThrough s len := rfl

@[simp] theorem finish_jumped (len : Nat) (b : Bool) (s : State) (ρ : TempEnv) : finish len b ⟨s, ρ, true⟩ = .next s := rfl

theorem runFragment_ofList (s : State) (len : Nat) (ss : List Stmt) :
    runFragment s len (Stmts.ofList ss) = runThen ss ⟨s, TempEnv.empty, false⟩ (finish len) := by
  unfold runFragment runThen andThen
  split <;> rename_i h <;> rw [h]
  rfl

section
variable {α β : Type}

/-! Not by `rfl`, so that a rewrite with them is a step of its own: to see that the two sides agree, the kernel would first compare `.ok a`
with the evaluation that `k` begins with. -/

@[simp] theorem andThen_ok (a : α) (k : α → Outcome State) : andThen (.ok a) k = k a := by
  simp only [andThen]

@[simp] theorem andThen_error (f : Fault) (k : α → Outcome State) : andThen (.error f) k = .fault f := by
  simp only [andThen]

@[simp] theorem andThen_map (r : Eval α) (g : α → β) (k : β → Outcome State) :
    andThen (r.map g) k = andThen r fun a => k (g a) := by
  cases r <;> rfl

@[simp] theorem andThen_effect (r : Eval State) (k : Value × State → Outcome State) :
    andThen (effect r) k = andThen r fun s => k (noResult, s) :=
  andThen_map ..

end

/-! ### The accesses of the IR are those of the instructions -/

section
variable (s : State) (a : Word) (v : Byte)

@[simp] theorem andThen_irRead (k : Byte → Outcome State) : andThen (irRead s a) k = loadByte s a k := by
  unfold irRead loadByte
  split <;> rfl

@[simp] theorem andThen_irWrite (k : State → Outcome State) : andThen (irWrite s a v) k = storeByte s a v k := by
  unfold irWrite storeByte
  split <;> rfl

@[simp] theorem andThen_irReadWord (k : Word → Outcome State) : andThen (irReadWord s a) k = loadWord s a k := by
  unfold irReadWord loadWord
  rw [← andThen_irRead]
  cases irRead s a with
  | error f => rfl
  | ok low =>
    simp only [andThen_ok, ← andThen_irRead]
    cases irRead s (a + 1) <;> rfl

@[simp] theorem andThen_irModify (g : State → Byte → Byte × State) (k : State → Outcome State) :
    andThen (irModify s a g) k = modifyByte s a g fun _ => k := by
  by_cases h : s.canRead a = true <;> simp [irModify, irRead, modifyByte, loadByte, h]

@[simp] theorem andThen_irPush (w : Word) (k : State → Outcome State) : andThen (irPush s w) k = push16 s w k := by
  unfold irPush push16
  rw [← andThen_irWrite]
  cases irWrite { s with sp := s.sp - 1 } (s.sp - 1) (hi w) with
  | error f => rfl
  | ok s1 => exact andThen_irWrite ..

end

/-! ### Statements -/

section
variable (c : Ctx) (k : Bool → Ctx → Outcome State) (rest : List Stmt)

@[simp] theorem runThen_nil : runThen [] c k = k false c := by
  simp only [runThen, Stmts.ofList, runStmts, andThen_ok]

@[simp] theorem runThen_varDecl (t : Temp) (e : Expr) :
    runThen (.varDecl t e :: rest) c k = evalThen e c fun v d => runThen rest { d with env := d.env.set t v } k := by
  simp only [runThen, evalThen, Stmts.ofList]
  cases h : evalExpr e c with
  | error f => rw [runStmts_cons_fault (f := f) (by simp only [runStmt, h])]; rfl
  | ok r => rw [runStmts_cons_next (runStmt_varDecl h)]; rfl

@[simp] theorem runThen_exprStmt (e : Expr) :
    runThen (.exprStmt e :: rest) c k = evalThen e c fun _ d => runThen rest d k := by
  simp only [runThen, evalThen, Stmts.ofList]
  cases h : evalExpr e c with
  | error f => rw [runStmts_cons_fault (f := f) (by simp only [runStmt, h, Except.map])]; rfl
  | ok r => rw [runStmts_cons_next (by rw [runStmt_exprStmt, h]; rfl)]; rfl

@[simp] theorem runThen_ret : runThen (.ret none :: rest) c k = k true c := by
  simp only [runThen, Stmts.ofList, runStmts_cons_returned (runStmt_ret_none c), andThen_ok]

/-- The body of an `If` ends the fragment where it returns. -/
@[simp] theorem runThen_ifS (t : Expr) (body : List Stmt) :
    runThen (ifS t body :: rest) c k = evalThen t c fun v d =>
      if v.truthy then runThen body d fun returned d' => if returned then k true d' else runThen rest d' k
      else runThen rest d k := by
  simp only [runThen, evalThen, Stmts.ofList, ifS]
  cases h : evalExpr t c with
  | error f => rw [runStmts_cons_fault (f := f) (by simp only [runStmt, h])]; rfl
  | ok r =>
    have hif := runStmt_ifElse (s := .block (Stmts.ofList body)) (alt := .nil) h
    simp only [andThen_ok]
    split
    · rename_i ht
      rw [if_pos ht, runStmt_block] at hif
      cases hb : runStmts (Stmts.ofList body) r.2 with
      | error f => rw [runStmts_cons_fault (hif.trans hb)]; rfl
      | ok q =>
        obtain ⟨returned, d⟩ := q
        cases returned
        · rw [runStmts_cons_next (hif.trans hb)]; rfl
        · rw [runStmts_cons_returned (hif.trans hb)]; rfl
    · rename_i ht
      rw [if_neg ht] at hif
      rw [runStmts_cons_next (d := r.2) (hif.trans (by simp only [runStmts]))]

end

/-! ### Expressions -/

section
variable (c : Ctx) (k : Value → Ctx → Outcome State)

theorem evalThen_of_ok {e : Expr} {c d : Ctx} {v : Value} (h : evalExpr e c = .ok (v, d)) (k : Value → Ctx → Outcome State) :
    evalThen e c k = k v d := by
  simp only [evalThen, h, andThen_ok]

@[simp] theorem evalThen_register (reg : IrReg) : evalThen (regE reg) c k = k (c.st.irReg reg) c :=
  evalThen_of_ok (evalExpr_register reg c) k

@[simp] theorem evalThen_tmp (t : Temp) : evalThen (tmpE t) c k = andThen (c.ident (.tmp t)) fun v => k v c := by
  simp only [evalThen, tmpE, evalExpr, andThen_map]

/-- Operands left to right, for a `Binary` that `fold` leaves. -/
@[simp] theorem evalThen_binary {op : BinOp} {l r : Expr} (hf : fold (.binary op l r) = .binary op l r) :
    evalThen (.binary op l r) c k = evalThen l c fun x d => evalThen r d fun y e =>
      andThen (orRange (.binary op l r) (binaryValue op x y) e) fun p => k p.1 p.2 := by
  simp only [evalThen]
  cases hl : evalExpr l c with
  | error f => rw [evalExpr_binary_of_left_fault hf hl]; rfl
  | ok p =>
    cases hr : evalExpr r p.2 with
    | error f => rw [evalExpr_binary_of_right_fault hf hl hr]; simp only [andThen_ok, hr, andThen_error]
    | ok q => rw [evalExpr_binary_of_not_folded hf hl hr]; simp only [andThen_ok, hr]

theorem evalThen_conditional (t x y : Expr) :
    evalThen (.conditional t x y) c k =
      evalThen t c fun v d => if v.truthy then evalThen x d k else evalThen y d k := by
  simp only [evalThen]
  cases h : evalExpr t c with
  | error f => simp only [evalExpr, h, andThen_error]
  | ok r =>
    rw [evalExpr_conditional h]
    simp only [andThen_ok]
    split <;> rfl

@[simp] theorem evalThen_index (t : Table) (e : Expr) :
    evalThen (.index t e) c k =
      evalThen e c fun v d => andThen (orRange (.index t e) (tableValue t v) d) fun p => k p.1 p.2 := by
  simp only [evalThen]
  cases h : evalExpr e c with
  | error f => simp only [evalExpr, h, andThen_error]
  | ok r => simp only [evalExpr, h, andThen_ok]

@[simp] theorem evalThen_call (p : Prim) (es : List Expr) :
    evalThen (callE p es) c k = argsThen es c fun vs d =>
      andThen (callPrim (callE p es) d.st p vs) fun r => k r.1 { d with st := r.2 } := by
  simp only [evalThen, argsThen, callE]
  cases h : evalArgs (Args.ofList es) c with
  | error f => simp only [evalExpr, h, andThen_error]
  | ok r => simp only [evalExpr, h, andThen_map, andThen_ok]

@[simp] theorem evalThen_set (target : Target) (e : Expr) :
    evalThen (.assign .set target e) c k = evalThen e c fun v d =>
      andThen (d.assign (.assign .set target e) target v) fun d' => k v d' := by
  simp only [evalThen]
  cases h : evalExpr e c with
  | error f => simp only [evalExpr, h, andThen_error]
  | ok r => simp only [evalExpr, h, andThen_map, andThen_ok]

@[simp] theorem argsThen_nil (k : List Value → Ctx → Outcome State) : argsThen [] c k = k [] c := by
  simp only [argsThen, Args.ofList, evalArgs, andThen_ok]

@[simp] theorem argsThen_cons (e : Expr) (es : List Expr) (k : List Value → Ctx → Outcome State) :
    argsThen (e :: es) c k = evalThen e c fun v d => argsThen es d fun vs d' => k (v :: vs) d' := by
  simp only [argsThen, evalThen, Args.ofList]
  cases h : evalExpr e c with
  | error f => simp only [evalArgs, h, andThen_error]
  | ok r => simp only [evalArgs, h, andThen_map, andThen_ok]

end

end Sys2Proof.Machine

/-! Values in a fragment: every value but the sums of the 16-bit templates is a byte or a word, and a masked result is one again. -/

namespace Sys2Proof.Machine

/-! ### Masks -/

/-- A mask of low ones is the remainder (00_scope.md R13). -/
theorem intAnd_two_pow_sub_one (x : Int) (k : Nat) : intAnd x (2 ^ k - 1 : Nat) = x % 2 ^ k := by
  cases x with
  | ofNat m => exact congrArg Int.ofNat (Nat.and_two_pow_sub_one_eq_mod m k)
  | negSucc m =>
    have hnot : (2 ^ k - 1) ^^^ m % 2 ^ k = 2 ^ k - 1 - m % 2 ^ k := by
      have h := congrArg BitVec.toNat (BitVec.allOnes_xor (x := BitVec.ofNat k m))
      rwa [BitVec.toNat_xor, BitVec.toNat_not, BitVec.toNat_allOnes, BitVec.toNat_ofNat] at h
    have hpos : (0 : Int) < 2 ^ k := by positivity
    have hlt := Nat.mod_lt m (Nat.two_pow_pos k)
    calc intAnd (.negSucc m) (2 ^ k - 1 : Nat)
      _ = ((2 ^ k - 1 - m % 2 ^ k : Nat) : Int) := by
        rw [← hnot, ← Nat.and_two_pow_sub_one_eq_mod, Nat.and_comm]
        rfl
      _ = Int.negSucc m % 2 ^ k := by
        rw [Int.negSucc_emod m hpos]
        push_cast [Nat.le_sub_one_of_lt hlt, Nat.one_le_two_pow]
        ring

theorem ofInt_sub {w : Nat} (x y : Int) : BitVec.ofInt w (x - y) = BitVec.ofInt w x - BitVec.ofInt w y := by
  rw [Int.sub_eq_add_neg, BitVec.ofInt_add, BitVec.ofInt_neg, BitVec.sub_eq_add_neg]

@[simp] theorem band_255 (n : Int) : binaryValue .band (.num n) (.num 255) = some (byteValue (BitVec.ofInt 8 n)) := by
  have h : intAnd n 255 = n % 256 := intAnd_two_pow_sub_one n 8
  rw [binaryValue, h, byteValue, BitVec.toNat_ofInt]
  simp only [Option.some.injEq, Value.num.injEq]
  omega

@[simp] theorem band_65535 (n : Int) : binaryValue .band (.num n) (.num 65535) = some (wordValue (BitVec.ofInt 16 n)) := by
  have h : intAnd n 65535 = n % 65536 := intAnd_two_pow_sub_one n 16
  rw [binaryValue, h, wordValue, BitVec.toNat_ofInt]
  simp only [Option.some.injEq, Value.num.injEq]
  omega

/-! ### Operators on bytes and words -/

@[simp] theorem band_byte (x y : Byte) : binaryValue .band (byteValue x) (byteValue y) = some (byteValue (x &&& y)) := rfl

@[simp] theorem bor_byte (x y : Byte) : binaryValue .bor (byteValue x) (byteValue y) = some (byteValue (x ||| y)) := by
  rw [byteValue, byteValue, binaryValue, intOr_eq_lor]
  rfl

@[simp] theorem bxor_byte (x y : Byte) : binaryValue .bxor (byteValue x) (byteValue y) = some (byteValue (x ^^^ y)) := rfl

@[simp] theorem orRange_byte (node : Expr) (v : Byte) (c : Ctx) : orRange node (some (byteValue v)) c = .ok (byteValue v, c) :=
  orRange_of_inIrRange (byteValue_inIrRange v) node c

@[simp] theorem orRange_word (node : Expr) (v : Word) (c : Ctx) : orRange node (some (wordValue v)) c = .ok (wordValue v, c) :=
  orRange_of_inIrRange (wordValue_inIrRange v) node c

/-- The shift that leaves the high byte of a word (00_scope.md R11). -/
@[simp] theorem shr_8_word (w : Word) : binaryValue .shr (wordValue w) (.num 8) = some (byteValue (hi w)) := by
  have hw := w.isLt
  have h : shiftRight w.toNat 8 = (w.toNat : Int) / 2 ^ 8 := shiftRight_natCast _ 8
  rw [wordValue, binaryValue, h]
  simp only [byteValue, hi, BitVec.toNat_ofNat, Option.some.injEq, Value.num.injEq]
  omega

@[simp] theorem band_255_word (w : Word) : binaryValue .band (wordValue w) (.num 255) = some (byteValue (lo w)) := by
  rw [wordValue, band_255, BitVec.ofInt_natCast]
  rfl

@[simp] theorem eq_byte (x y : Byte) : binaryValue .eq (byteValue x) (byteValue y) = some (.bool (x == y)) := by
  simp only [byteValue, binaryValue, Option.some.injEq, Value.bool.injEq]
  rw [Bool.eq_iff_iff, decide_eq_true_eq, beq_iff_eq, Nat.cast_inj, BitVec.toNat_inj]

@[simp] theorem ne_byte (x y : Byte) : binaryValue .ne (byteValue x) (byteValue y) = some (.bool (x != y)) := by
  simp only [byteValue, binaryValue, Option.some.injEq, Value.bool.injEq]
  rw [Bool.eq_iff_iff, decide_eq_true_eq, bne_iff_ne, Ne, Nat.cast_inj, BitVec.toNat_inj]

@[simp] theorem tableValue_sz (x : Byte) : tableValue .sz (byteValue x) = some (byteValue (sz x)) := by
  rw [tableValue, byteValue_u8]
  rfl

@[simp] theorem tableValue_szp (x : Byte) : tableValue .szp (byteValue x) = some (byteValue (szp x)) := by
  rw [tableValue, byteValue_u8]
  rfl

@[simp] theorem truthy_bool (b : Bool) : (Value.bool b).truthy = b := rfl

/-! A byte beside a numeral. -/

section
variable (x : Byte) {n : Int} (h0 : 0 ≤ n) (h1 : n ≤ 255)
include h0 h1

@[simp] theorem band_num : binaryValue .band (byteValue x) (.num n) = some (byteValue (x &&& BitVec.ofInt 8 n)) := by
  rw [← byteValue_ofInt h0 h1, band_byte]

@[simp] theorem bor_num : binaryValue .bor (byteValue x) (.num n) = some (byteValue (x ||| BitVec.ofInt 8 n)) := by
  rw [← byteValue_ofInt h0 h1, bor_byte]

@[simp] theorem eq_num : binaryValue .eq (byteValue x) (.num n) = some (.bool (x == BitVec.ofInt 8 n)) := by
  rw [← byteValue_ofInt h0 h1, eq_byte]

@[simp] theorem ne_num : binaryValue .ne (byteValue x) (.num n) = some (.bool (x != BitVec.ofInt 8 n)) := by
  rw [← byteValue_ofInt h0 h1, ne_byte]

end

/-- A sum or a difference with a small constant. -/
theorem orRange_small (node : Expr) (c : Ctx) {n : Int} (h0 : -131072 ≤ n) (h1 : n ≤ 131072) :
    orRange node (some (.num n)) c = .ok (.num n, c) :=
  orRange_of_inIrRange (v := .num n) ((inIrRange_iff n).2 (by omega)) node c

section
variable (c : Ctx) (k : Value → Ctx → Outcome State)

@[simp] theorem evalThen_byte (v : Byte) : evalThen (numLit v.toNat) c k = k (byteValue v) c :=
  evalThen_of_ok ((evalExpr_numLit _ c).trans (rangedResult_of_inIrRange (byteValue_inIrRange v) _ _)) k

@[simp] theorem evalThen_word (v : Word) : evalThen (numLit v.toNat) c k = k (wordValue v) c :=
  evalThen_of_ok ((evalExpr_numLit _ c).trans (rangedResult_of_inIrRange (wordValue_inIrRange v) _ _)) k

/-- A constant of a template. -/
@[simp] theorem evalThen_const {n : Int} (h0 : -131072 ≤ n) (h1 : n ≤ 131072) : evalThen (numLit n) c k = k (.num n) c :=
  evalThen_of_ok ((evalExpr_numLit n c).trans (rangedResult_of_inIrRange ((inIrRange_iff n).2 (by omega)) _ _)) k

/-- `p ? m : 0` in a fragment is a flag (00_scope.md R13). -/
@[simp] theorem evalThen_flagIf {m : Int} (h0 : 0 ≤ m) (h1 : m ≤ 255) (t : Expr) :
    evalThen (.conditional t (numLit m) (numLit 0)) c k =
      evalThen t c fun v d => k (byteValue (flagIf v.truthy (BitVec.ofInt 8 m))) d := by
  rw [evalThen_conditional]
  congr 1
  funext v d
  rw [evalThen_const _ _ (by omega) (by omega), evalThen_const _ _ (by omega) (by omega)]
  split
  · rename_i hv
    rw [hv, flagIf, if_pos rfl, byteValue_ofInt h0 h1]
  · rename_i hv
    rw [Bool.eq_false_of_not_eq_true hv, flagIf, if_neg Bool.false_ne_true]
    rfl

@[simp] theorem evalThen_bit (b : Fin 8) : evalThen (.bit b) c k = k (byteValue (bitMask b)) c := by
  have h : (2 ^ b.val : Nat) = (bitMask b).toNat := by
    revert b
    decide
  rw [evalThen_of_ok (evalExpr_bit b c), h]
  rfl

end

end Sys2Proof.Machine

/-! The operands of the templates: registers, pairs, conditions and addresses, each by the accessor that the instructions use. -/

namespace Sys2Proof.Machine

/-! ### The nodes that the building blocks of Machine/Template.lean stand for -/

@[simp] theorem andE_eq (l r : Expr) : andE l r = .binary .band l r := rfl

@[simp] theorem orE_eq (l r : Expr) : orE l r = .binary .bor l r := rfl

@[simp] theorem xorE_eq (l r : Expr) : xorE l r = .binary .bxor l r := rfl

@[simp] theorem addE_eq (l r : Expr) : addE l r = .binary .add l r := rfl

@[simp] theorem subE_eq (l r : Expr) : subE l r = .binary .sub l r := rfl

@[simp] theorem shrE_eq (e : Expr) (k : Int) : shrE e k = .binary .shr e (numLit k) := rfl

@[simp] theorem setReg_eq (reg : IrReg) (e : Expr) : setReg reg e = .exprStmt (.assign .set (.register reg) e) := rfl

@[simp] theorem setPc_eq (e : Expr) : setPc e = .exprStmt (.assign .set (.identifier (.env .pc)) e) := rfl

@[simp] theorem callS_eq (p : Prim) (es : List Expr) : callS p es = .exprStmt (callE p es) := rfl

/-! ### The shapes that `fold` leaves: the left operand is no literal, or the operator is not `>>` or `&` -/

section
variable (op : BinOp) (e : Expr)

@[simp] theorem fold_register (reg : IrReg) : fold (.binary op (regE reg) e) = .binary op (regE reg) e := by
  cases op <;> rfl

@[simp] theorem fold_tmp (t : Temp) : fold (.binary op (tmpE t) e) = .binary op (tmpE t) e := by
  cases op <;> rfl

@[simp] theorem fold_call (p : Prim) (es : List Expr) : fold (.binary op (callE p es) e) = .binary op (callE p es) e := by
  cases op <;> rfl

@[simp] theorem fold_binary (op' : BinOp) (l r : Expr) :
    fold (.binary op (.binary op' l r) e) = .binary op (.binary op' l r) e := by
  cases op <;> rfl

@[simp] theorem fold_of_ne {op : BinOp} (hshr : op ≠ .shr) (hband : op ≠ .band) (l : Expr) :
    fold (.binary op l e) = .binary op l e := by
  cases op
  case shr => exact absurd rfl hshr
  case band => exact absurd rfl hband
  all_goals rfl

end

/-! ### Registers -/

@[simp] theorem irReg_reg8 (s : State) (r : Reg8) : s.irReg (Reg8.ir r) = byteValue (s.reg8 r) := by
  cases r <;> rfl

@[simp] theorem irReg_half (s : State) (x : IndexReg) (u : IndexHalf) : s.irReg (halfIr x u) = byteValue (s.half x u) := by
  cases x <;> cases u <;> rfl

@[simp] theorem irReg_rho (s : State) (x : IndexReg) (t : Rho) : s.irReg (rhoIr x t) = byteValue (s.rho x t) := by
  cases x <;> cases t <;> rfl

@[simp] theorem irPair_ptrIr (s : State) (q : PtrPair) : s.irPair (ptrIr q) = s.ptrPair q := by
  cases q <;> rfl

@[simp] theorem irPair_stackIr (s : State) (p : StackPair) : s.irPair (stackIr p) = s.stackPair p := by
  cases p <;> rfl

@[simp] theorem irPair_index (s : State) (x : IndexReg) : s.irPair (IndexReg.irPair x) = s.index x := by
  cases x <;> rfl

@[simp] theorem setIrPair_stackIr (s : State) (p : StackPair) (w : Word) : s.setIrPair (stackIr p) w = s.setStackPair p w := by
  cases p <;> rfl

@[simp] theorem setIrPair_index (s : State) (x : IndexReg) (w : Word) : s.setIrPair (IndexReg.irPair x) w = s.setIndex x w := by
  cases x <;> rfl

theorem assign_register {s t : State} {reg : IrReg} {v : Value} (hv : v.inIrRange = true) (h : s.setIrReg reg v = some t)
    (hpc : (reg == .pc) = false) (ρ : TempEnv) (j : Bool) (node : Expr) :
    Ctx.assign ⟨s, ρ, j⟩ node (.register reg) v = .ok ⟨t, ρ, j⟩ := by
  simp only [Ctx.assign, hv, if_true, h, hpc, Ctx.withState, Bool.or_false]

theorem assign_pc_of_some {s t : State} {v : Value} (hv : v.inIrRange = true) (h : s.setEnvScalar .pc v = some t) (ρ : TempEnv)
    (j : Bool) (node : Expr) : Ctx.assign ⟨s, ρ, j⟩ node (.identifier (.env .pc)) v = .ok ⟨t, ρ, true⟩ := by
  simp only [Ctx.assign, hv, if_true, h, Ctx.withState, beq_self_eq_true, Bool.or_true]

theorem setIrReg_byte {s : State} {reg : IrReg} {g : Byte → State} (h : ∀ v : Value, s.setIrReg reg v = v.u8.map g) (v : Byte) :
    s.setIrReg reg (byteValue v) = some (g v) := by
  rw [h, byteValue_u8]
  rfl

theorem setIrReg_word {s : State} {reg : IrReg} {g : Word → State} (h : ∀ v : Value, s.setIrReg reg v = v.u16.map g) (w : Word) :
    s.setIrReg reg (wordValue w) = some (g w) := by
  rw [h, wordValue_u16]
  rfl

theorem setEnvScalar_pc (s : State) (w : Word) : s.setEnvScalar .pc (wordValue w) = some { s with pc := w } := by
  have h (v : Value) : s.setEnvScalar .pc v = v.u16.map fun w => { s with pc := w } := rfl
  rw [h, wordValue_u16]
  rfl

theorem setIrReg_reg8 (s : State) (r : Reg8) (v : Byte) : s.setIrReg (Reg8.ir r) (byteValue v) = some (s.setReg8 r v) := by
  cases r <;> exact setIrReg_byte (fun _ => rfl) v

theorem setIrReg_half (s : State) (x : IndexReg) (u : IndexHalf) (v : Byte) :
    s.setIrReg (halfIr x u) (byteValue v) = some (s.setHalf x u v) := by
  cases x <;> cases u <;> exact setIrReg_byte (fun _ => rfl) v

section
variable (s : State) (ρ : TempEnv) (j : Bool) (node : Expr) (v : Byte) (w : Word)

@[simp] theorem assign_reg8 (r : Reg8) :
    Ctx.assign ⟨s, ρ, j⟩ node (.register (Reg8.ir r)) (byteValue v) = .ok ⟨s.setReg8 r v, ρ, j⟩ :=
  assign_register (byteValue_inIrRange v) (setIrReg_reg8 s r v) (by cases r <;> rfl) ..

@[simp] theorem assign_half (x : IndexReg) (u : IndexHalf) :
    Ctx.assign ⟨s, ρ, j⟩ node (.register (halfIr x u)) (byteValue v) = .ok ⟨s.setHalf x u v, ρ, j⟩ :=
  assign_register (byteValue_inIrRange v) (setIrReg_half s x u v) (by cases x <;> cases u <;> rfl) ..

@[simp] theorem assign_a : Ctx.assign ⟨s, ρ, j⟩ node (.register .a) (byteValue v) = .ok ⟨{ s with a := v }, ρ, j⟩ :=
  assign_reg8 s ρ j node v .a

@[simp] theorem assign_f : Ctx.assign ⟨s, ρ, j⟩ node (.register .f) (byteValue v) = .ok ⟨{ s with f := v }, ρ, j⟩ :=
  assign_register (byteValue_inIrRange v) (setIrReg_byte (g := fun x => { s with f := x }) (fun _ => rfl) v) rfl ..

@[simp] theorem assign_sp : Ctx.assign ⟨s, ρ, j⟩ node (.register .sp) (wordValue w) = .ok ⟨{ s with sp := w }, ρ, j⟩ :=
  assign_register (wordValue_inIrRange w) (setIrReg_word (g := fun x => { s with sp := x }) (fun _ => rfl) w) rfl ..

@[simp] theorem assign_pc :
    Ctx.assign ⟨s, ρ, j⟩ node (.identifier (.env .pc)) (wordValue w) = .ok ⟨{ s with pc := w }, ρ, true⟩ :=
  assign_pc_of_some (wordValue_inIrRange w) (setEnvScalar_pc s w) ..

@[simp] theorem assign_i : Ctx.assign ⟨s, ρ, j⟩ node (.register .i) (byteValue v) = .ok ⟨{ s with i := v }, ρ, j⟩ :=
  assign_register (byteValue_inIrRange v) (setIrReg_byte (g := fun x => { s with i := x }) (fun _ => rfl) v) rfl ..

@[simp] theorem assign_r : Ctx.assign ⟨s, ρ, j⟩ node (.register .r) (byteValue v) = .ok ⟨{ s with r := v }, ρ, j⟩ :=
  assign_register (byteValue_inIrRange v) (setIrReg_byte (g := fun x => { s with r := x }) (fun _ => rfl) v) rfl ..

@[simp] theorem assign_rho (x : IndexReg) (t : Rho) :
    Ctx.assign ⟨s, ρ, j⟩ node (.register (rhoIr x t)) (byteValue v) = .ok ⟨s.setRho x t v, ρ, j⟩ := by
  cases t with
  | xh => exact assign_half s ρ j node v x .high
  | xl => exact assign_half s ρ j node v x .low
  | b => exact assign_reg8 s ρ j node v .b
  | c => exact assign_reg8 s ρ j node v .c
  | d => exact assign_reg8 s ρ j node v .d
  | e => exact assign_reg8 s ρ j node v .e
  | a => exact assign_reg8 s ρ j node v .a

/-! ### Temporaries -/

@[simp] theorem ident_tmp_set (t : Temp) {v : Value} (hv : v.inIrRange = true) :
    Ctx.ident ⟨s, ρ.set t v, j⟩ (.tmp t) = .ok v := by
  simp only [Ctx.ident, Ctx.held, TempEnv.get_set_same, hv, if_true]

@[simp] theorem ident_tmp_set_other {t t' : Temp} (h : t ≠ t') (v : Value) :
    Ctx.ident ⟨s, ρ.set t' v, j⟩ (.tmp t) = Ctx.ident ⟨s, ρ, j⟩ (.tmp t) := by
  have hget : (ρ.set t' v).get t = ρ.get t := by cases t <;> cases t' <;> trivial
  simp only [Ctx.ident, Ctx.held, hget]

end

section
variable {α : Type} (node : Expr)

theorem needU8_of_some {v : Value} {x : Byte} (h : v.u8 = some x) (k : Byte → Eval α) : needU8 node v k = k x := by
  simp only [needU8, h]

theorem needU16_of_some {v : Value} {x : Word} (h : v.u16 = some x) (k : Word → Eval α) : needU16 node v k = k x := by
  simp only [needU16, h]

@[simp] theorem needU8_byte (v : Byte) (k : Byte → Eval α) : needU8 node (byteValue v) k = k v :=
  needU8_of_some node (byteValue_u8 v) k

@[simp] theorem needU16_word (w : Word) (k : Word → Eval α) : needU16 node (wordValue w) k = k w :=
  needU16_of_some node (wordValue_u16 w) k

end

/-! ### Rows and their fragments -/

/-- The fragment of the row has the effect of the row's rule at `s` (40_ir_fold.md R153). -/
def Denotes (i : Instr) (s : State) : Prop := execIr i s = .ok (some (exec i s))

theorem execIr_of_synth {i : Instr} {ss : Holes → List Stmt} (hw : i.wellFormed = true) {s : State}
    (ht : synth s.params i = fragment ss) :
    execIr i s =
      .ok (some (runThen (ss (holesOf (s.nextAddress i.length) i)) ⟨s, TempEnv.empty, false⟩ (finish i.length))) := by
  unfold execIr
  rw [fragmentOf_eq hw ht, ← runFragment_ofList]
  rfl

/-- A row denotes its rule where its statements, run, are what `exec` is written as. -/
theorem denotes_of_run {i : Instr} {s : State} {ss : Holes → List Stmt} (hw : i.wellFormed = true)
    (ht : synth s.params i = fragment ss)
    (hr : runThen (ss (holesOf (s.nextAddress i.length) i)) ⟨s, TempEnv.empty, false⟩ (finish i.length) = exec i s) :
    Denotes i s :=
  (execIr_of_synth hw ht).trans (congrArg (fun o => Except.ok (some o)) hr)

end Sys2Proof.Machine

/-! The 8-bit operand forms (43_arith8.md R270, 42_load.md R220): source operands and the places of memory. -/

namespace Sys2Proof.Machine

/-- `(XY + s8(d)) & 0xFFFF` in a fragment (47_bit.md R365). -/
theorem evalThen_locationE (x : IndexReg) {h : Holes} {d : Byte} (hd : h.displacement = s8 d) (s : State) (ρ : TempEnv) (j : Bool)
    (k : Value → Ctx → Outcome State) :
    evalThen (locationE x h) ⟨s, ρ, j⟩ k = k (wordValue (s.indexed x d)) ⟨s, ρ, j⟩ := by
  have hsum := (s.index x).isLt
  have hdisp : -128 ≤ s8 d ∧ s8 d ≤ 127 := by
    have := d.isLt
    unfold s8
    split <;> omega
  simp only [locationE, andE, addE, evalThen_binary, fold_binary, fold_call, evalThen_call, argsThen_nil, callPrim, andThen_ok, hd,
    irPair_index]
  rw [evalThen_const _ _ (by omega) (by omega), wordValue, binaryValue, orRange_small _ _ (by omega) (by omega), andThen_ok,
    evalThen_const _ _ (by decide) (by decide), band_65535, orRange_word]
  rfl

theorem runThen_locationS (x : IndexReg) {h : Holes} {d : Byte} (hd : h.displacement = s8 d) (s : State) (ρ : TempEnv) (j : Bool)
    (rest : List Stmt) (k : Bool → Ctx → Outcome State) :
    runThen (locationS x h :: rest) ⟨s, ρ, j⟩ k = runThen rest ⟨s, ρ.set .location (wordValue (s.indexed x d)), j⟩ k := by
  rw [locationS, runThen_varDecl, evalThen_locationE x hd]

/-- The descriptor of a source operand. -/
def Source8.desc : Source8 → Desc
  | .reg r => .reg (Reg8.ir r)
  | .imm _ => .imm8
  | .mem => .memPair .hl
  | .idx x _ => .indexed x
  | .half x u => .reg (halfIr x u)

/-- The decoded values hold the immediate or the displacement of the operand (40_ir_fold.md R171). -/
def Source8.InHoles (h : Holes) : Source8 → Prop
  | .imm n => h.value = n.toNat
  | .idx _ d => h.displacement = s8 d
  | .reg _ | .mem | .half _ _ => True

/-- The expression that `sourceE` gives for a source operand. -/
def Source8.expr (h : Holes) : Source8 → Expr
  | .reg r => regE (Reg8.ir r)
  | .imm _ => numLit h.value
  | .mem => callE .readMem [hlE]
  | .idx x _ => callE .readMem [locationE x h]
  | .half x u => regE (halfIr x u)

theorem sourceE_desc (o : Source8) : sourceE o.desc = some fun h => o.expr h := by
  cases o with
  | reg r => cases r <;> rfl
  | half x u => cases x <;> cases u <;> rfl
  | _ => rfl

@[simp] theorem evalThen_hlE (s : State) (ρ : TempEnv) (j : Bool) (k : Value → Ctx → Outcome State) :
    evalThen hlE ⟨s, ρ, j⟩ k = k (wordValue s.hl) ⟨s, ρ, j⟩ := by
  simp only [hlE, evalThen_call, argsThen_nil, callPrim, andThen_ok, State.irPair]

/-- A source operand is read, or the access is stuck (20_memory.md R78). -/
theorem evalThen_source {o : Source8} {h : Holes} (ho : o.InHoles h) (s : State) (ρ : TempEnv) (j : Bool)
    (k : Value → Ctx → Outcome State) :
    evalThen (o.expr h) ⟨s, ρ, j⟩ k =
      if o.readable s then k (byteValue (o.value s)) ⟨s, ρ, j⟩ else .fault .stuck := by
  cases o with
  | reg r => exact (evalThen_register ..).trans (congrArg (fun v => k v _) (irReg_reg8 s r))
  | half x u => exact (evalThen_register ..).trans (congrArg (fun v => k v _) (irReg_half s x u))
  | imm n =>
    have hn : h.value = n.toNat := ho
    rw [Source8.expr, hn]
    exact evalThen_byte ..
  | mem =>
    simp only [Source8.expr, evalThen_call, argsThen_cons, evalThen_hlE, argsThen_nil, callPrim, needU16_word, andThen_map, andThen_irRead]
    rfl
  | idx x d =>
    have hd : h.displacement = s8 d := ho
    simp only [Source8.expr, evalThen_call, argsThen_cons, evalThen_locationE x hd, argsThen_nil, callPrim, needU16_word, andThen_map,
      andThen_irRead]
    rfl

/-! ### The accumulator operations -/

/-- The operation of 43_arith8.md R270 that a delegating call names. -/
def AccOp.alu : AccOp → AluOp
  | .add => .add
  | .adc => .adc
  | .sub => .sub
  | .sbc => .sbc
  | .cp => .cp

theorem callOf_acc (op : AccOp) (o : Source8) : callOf (aluInstr op.alu o) = .alu op o.desc := by
  cases op <;> cases o <;> rfl

theorem length_aluInstr (op : AluOp) (o : Source8) : (aluInstr op o).length = o.length := by
  cases op <;> cases o <;> rfl

theorem wellFormed_aluInstr (op : AluOp) (o : Source8) : (aluInstr op o).wellFormed = true := by
  cases op <;> cases o <;> rfl

/-- The decoded values of an accumulator row. -/
theorem inHoles_aluInstr (op : AluOp) (o : Source8) (next : Word) : o.InHoles (holesOf next (aluInstr op o)) := by
  cases op <;> cases o <;> trivial

theorem synth_acc (cfg : Params) (op : AccOp) (o : Source8) :
    synth cfg (aluInstr op.alu o) = fragment fun h => [callS op.prim [o.expr h]] := by
  unfold synth
  rw [callOf_acc]
  simp only [buildCall, aluT, sourceE_desc]

/-- A delegating operation is its primitive on the operand (43_arith8.md R271 to R275). -/
theorem denotes_acc (op : AccOp) (o : Source8) (s : State) :
    Denotes (aluInstr op.alu o) s := by
  refine denotes_of_run (wellFormed_aluInstr ..) (synth_acc ..) ?_
  rw [exec_aluInstr, length_aluInstr]
  simp only [callS, runThen_exprStmt, evalThen_call, argsThen_cons, argsThen_nil, evalThen_source (inHoles_aluInstr op.alu o _)]
  cases op <;>
    simp only [AccOp.prim, callPrim, needU8_byte, andThen_effect, andThen_ok, runThen_nil] <;> rfl

end Sys2Proof.Machine

/-! The flags that a fragment computes in line: bits 5 and 3 by the policy (41_alu_flags.md R180), the logical operations (44_logical.md
R300), `LD A,I` and `LD A,R` (42_load.md R233, R234). -/

namespace Sys2Proof.Machine

/-- The state after `XY`: a draw is counted (41_alu_flags.md R180). -/
def State.afterXy (s : State) : State :=
  match s.params.undoc with
  | .z80 => s
  | .draw => s.afterDraw

theorem State.setFlags_eq (s : State) (base src : Byte) :
    s.setFlags base src = { s.afterXy with f := base ||| s.xyBits src } := by
  cases h : s.params.undoc with
  | z80 => simp only [State.setFlags, State.afterXy, h]
  | draw => simp only [State.setFlags, State.afterXy, h]; rfl

/-- The primitive `draw` (00_scope.md R16). -/
@[simp] theorem evalThen_draw (s : State) (ρ : TempEnv) (j : Bool) (k : Value → Ctx → Outcome State) :
    evalThen (callE .draw []) ⟨s, ρ, j⟩ k = k (byteValue s.drawn) ⟨s.afterDraw, ρ, j⟩ := by
  simp only [evalThen_call, argsThen_nil, callPrim, andThen_ok]

theorem evalThen_xyE (s : State) (ρ : TempEnv) (j : Bool) (k : Value → Ctx → Outcome State) :
    evalThen (xyE s.params.undoc (regE .a)) ⟨s, ρ, j⟩ k = k (byteValue (s.xyBits s.a)) ⟨s.afterXy, ρ, j⟩ := by
  unfold State.afterXy State.xyBits
  cases s.params.undoc <;>
    simp [xyE, callPrim, State.irReg]

/-- `F <- base | XY(A)` in a fragment. -/
theorem runThen_setFlags {s : State} {e : Expr} {base : Byte} {ρ : TempEnv} {j : Bool}
    (he : ∀ k, evalThen e ⟨s, ρ, j⟩ k = k (byteValue base) ⟨s, ρ, j⟩) (rest : List Stmt) (k : Bool → Ctx → Outcome State) :
    runThen (setReg .f (orE e (xyE s.params.undoc (regE .a))) :: rest) ⟨s, ρ, j⟩ k =
      runThen rest ⟨s.setFlags base s.a, ρ, j⟩ k := by
  simp [he, evalThen_xyE, State.setFlags_eq]

/-! ### `AND`, `XOR` and `OR` -/

def LogicOp.alu : LogicOp → AluOp
  | .and => .and
  | .xor => .xor
  | .or => .or

/-- The flags of a logical operation without bits 5 and 3, from the result in `A`. -/
def logicFlagsE : LogicOp → Expr
  | .and => orE (.index .szp (regE .a)) (numLit 0x10)
  | .xor | .or => .index .szp (regE .a)

theorem synth_logic (cfg : Params) (op : LogicOp) (o : Source8) :
    synth cfg (aluInstr (LogicOp.alu op) o) = fragment fun h =>
      [setReg .a (.binary (logicBinOp op) (regE .a) (o.expr h)), setReg .f (orE (logicFlagsE op) (xyE cfg.undoc (regE .a)))] := by
  have hcall : callOf (aluInstr (LogicOp.alu op) o) = .logical op o.desc := by cases op <;> cases o <;> rfl
  unfold synth
  rw [hcall]
  simp only [buildCall, logicT, sourceE_desc]
  cases op <;> rfl

theorem binaryValue_logic (op : LogicOp) (a v : Byte) :
    binaryValue (logicBinOp op) (byteValue a) (byteValue v) = some (byteValue (logic op a v).1) := by
  cases op
  · exact band_byte a v
  · exact bxor_byte a v
  · exact bor_byte a v

theorem evalThen_logicFlagsE (op : LogicOp) {s : State} {a v : Byte} (hs : s.a = (logic op a v).1) (ρ : TempEnv) (j : Bool)
    (k : Value → Ctx → Outcome State) :
    evalThen (logicFlagsE op) ⟨s, ρ, j⟩ k = k (byteValue (logic op a v).2) ⟨s, ρ, j⟩ := by
  cases op <;> simp [logicFlagsE, State.irReg, hs, logic]

theorem denotes_logic (op : LogicOp) (o : Source8) (s : State) :
    Denotes (aluInstr (LogicOp.alu op) o) s := by
  refine denotes_of_run (wellFormed_aluInstr ..) (synth_logic ..) ?_
  rw [exec_aluInstr, length_aluInstr]
  have hfirst (a : Byte) : runThen [setReg .f (orE (logicFlagsE op) (xyE s.params.undoc (regE .a)))]
      ⟨{ s with a := (logic op s.a a).1 }, TempEnv.empty, false⟩ (finish o.length) = fallThrough (s.logicA op a) o.length :=
    runThen_setFlags (s := { s with a := (logic op s.a a).1 }) (evalThen_logicFlagsE op rfl _ _) [] _
  rw [setReg_eq, runThen_exprStmt]
  simp only [evalThen_set, evalThen_binary, fold_register, evalThen_register, State.irReg,
    evalThen_source (inHoles_aluInstr (LogicOp.alu op) o _), binaryValue_logic, orRange_byte, andThen_ok, assign_a, hfirst]
  cases op <;> rfl

/-! ### `LD A,I` and `LD A,R` -/

theorem truthy_bit (b : BitVec 1) : (Value.num b.toNat).truthy = (b == 1) := by
  revert b
  decide

/-- `F <- irf(A, IFF2, F)` in a fragment (41_alu_flags.md R200). -/
theorem runThen_irFlagsS (s : State) (ρ : TempEnv) (j : Bool) (rest : List Stmt) (k : Bool → Ctx → Outcome State) :
    runThen (irFlagsS s.params.undoc :: rest) ⟨s, ρ, j⟩ k =
      runThen rest ⟨s.setFlags (irFlags s.a s.iff2 s.f) s.a, ρ, j⟩ k := by
  have hiff : s.afterXy.iff2 = s.iff2 := by unfold State.afterXy; split <;> rfl
  have hf : s.f &&& 1#8 ||| sz s.a ||| s.xyBits s.a ||| flagIf (s.iff2 == 1#1) 4#8 = irFlags s.a s.iff2 s.f ||| s.xyBits s.a := by
    unfold irFlags
    ac_rfl
  simp [irFlagsS, evalThen_xyE, State.setFlags_eq, State.irReg, hiff, truthy_bit, hf]

end Sys2Proof.Machine

/-! The loads (42_load.md): `LD8`, `LD8_D`, `LD_WRITE_MEM`, `LD16`, `LD_SP` and `LD_NN`. -/

namespace Sys2Proof.Machine

section
variable (s : State)

/-! ### `LD8` and `LD8_D` -/

theorem denotes_ldRR (dst src : Reg8) : Denotes (.ldRR dst src) s := by
  refine denotes_of_run (ss := fun _ => [setReg (Reg8.ir dst) (regE (Reg8.ir src))]) rfl (by cases dst <;> cases src <;> rfl) ?_
  simp
  rfl

theorem denotes_ldRN (dst : Reg8) (n : Byte) : Denotes (.ldRN dst n) s := by
  refine denotes_of_run (ss := fun h => [setReg (Reg8.ir dst) (numLit h.value)]) rfl (by cases dst <;> rfl) ?_
  simp [holesOf, immediate]
  rfl

theorem denotes_ldRHl (dst : Reg8) : Denotes (.ldRHl dst) s := by
  refine denotes_of_run (ss := fun _ => [setReg (Reg8.ir dst) (callE .readMem [hlE])]) rfl (by cases dst <;> rfl) ?_
  simp [callPrim]
  rfl

theorem denotes_ldRXd (r : Reg8) (x : IndexReg) (d : Byte) : Denotes (.ldRXd r x d) s := by
  refine denotes_of_run (ss := fun h => [locationS x h, setReg (Reg8.ir r) (callE .readMem [tmpE .location])]) rfl
    (by cases r <;> rfl) ?_
  rw [runThen_locationS x (d := d) rfl]
  simp [callPrim, wordValue_inIrRange]
  rfl

theorem denotes_ldAPtr (q : PtrPair) : Denotes (.ldAPtr q) s := by
  refine denotes_of_run (ss := fun _ => [setReg .a (callE .readMem [callE (.getPair (ptrIr q)) []])]) rfl (by cases q <;> rfl) ?_
  simp [callPrim]
  rfl

theorem denotes_ldAAbs (nn : Word) : Denotes (.ldAAbs nn) s := by
  refine denotes_of_run (ss := fun h => [setReg .a (callE .readMem [numLit h.value])]) rfl rfl ?_
  simp [callPrim, holesOf, immediate]
  rfl

theorem denotes_ldXhN (x : IndexReg) (u : IndexHalf) (n : Byte) : Denotes (.ldXhN x u n) s := by
  refine denotes_of_run (ss := fun h => [setReg (halfIr x u) (numLit h.value)]) rfl (by cases x <;> cases u <;> rfl) ?_
  simp [holesOf, immediate]
  rfl

theorem denotes_ldRho (x : IndexReg) (t sr : Rho) (hw : (Instr.ldRho x t sr).wellFormed = true) : Denotes (.ldRho x t sr) s := by
  refine denotes_of_run (ss := fun _ => [setReg (rhoIr x t) (regE (rhoIr x sr))]) hw
    (by cases x <;> cases t <;> cases sr <;> rfl) ?_
  simp
  rfl

theorem denotes_ldIA : Denotes .ldIA s := by
  refine denotes_of_run (ss := fun _ => [setReg .i (regE .a)]) rfl rfl ?_
  simp [State.irReg]
  rfl

theorem denotes_ldRefreshA : Denotes .ldRefreshA s := by
  refine denotes_of_run (ss := fun _ => [setReg .r (regE .a)]) rfl rfl ?_
  simp [State.irReg]
  rfl

theorem denotes_ldAI : Denotes .ldAI s := by
  refine denotes_of_run (ss := fun _ => [setReg .a (regE .i), irFlagsS s.params.undoc]) rfl rfl ?_
  have hflags := runThen_irFlagsS { s with a := s.i } TempEnv.empty false [] (finish 2)
  simp only [setReg_eq, runThen_exprStmt, evalThen_set, evalThen_register, State.irReg, assign_a, andThen_ok]
  exact hflags.trans (runThen_nil ..)

theorem denotes_ldARefresh : Denotes .ldARefresh s := by
  refine denotes_of_run (ss := fun _ => [setReg .a (callE .draw []), irFlagsS s.params.undoc]) rfl rfl ?_
  have hflags := runThen_irFlagsS { s.afterDraw with a := s.drawn } TempEnv.empty false [] (finish 2)
  simp only [setReg_eq, runThen_exprStmt, evalThen_set, evalThen_draw, assign_a, andThen_ok]
  exact hflags.trans (runThen_nil ..)

/-! ### Stores of one byte -/

theorem denotes_ldHlR (r : Reg8) : Denotes (.ldHlR r) s := by
  refine denotes_of_run (ss := fun _ => [callS .writeMem [hlE, regE (Reg8.ir r)]]) rfl (by cases r <;> rfl) ?_
  simp [callPrim]
  rfl

theorem denotes_ldHlN (n : Byte) : Denotes (.ldHlN n) s := by
  refine denotes_of_run (ss := fun h => [callS .writeMem [hlE, numLit h.value]]) rfl rfl ?_
  simp [callPrim, holesOf, immediate]
  rfl

theorem denotes_ldPtrA (q : PtrPair) : Denotes (.ldPtrA q) s := by
  refine denotes_of_run (ss := fun _ => [callS .writeMem [callE (.getPair (ptrIr q)) [], regE .a]]) rfl (by cases q <;> rfl) ?_
  simp [callPrim, State.irReg]
  rfl

theorem denotes_ldAbsA (nn : Word) : Denotes (.ldAbsA nn) s := by
  refine denotes_of_run (ss := fun h => [callS .writeMem [numLit h.value, regE .a]]) rfl rfl ?_
  simp [callPrim, State.irReg, holesOf, immediate]
  rfl

theorem denotes_ldXdR (x : IndexReg) (d : Byte) (r : Reg8) : Denotes (.ldXdR x d r) s := by
  refine denotes_of_run (ss := fun h => [locationS x h, callS .writeMem [tmpE .location, regE (Reg8.ir r)]]) rfl
    (by cases r <;> rfl) ?_
  rw [runThen_locationS x (d := d) rfl]
  simp [callPrim, wordValue_inIrRange]
  rfl

theorem denotes_ldXdN (x : IndexReg) (d n : Byte) : Denotes (.ldXdN x d n) s := by
  refine denotes_of_run (ss := fun h => [locationS x h, callS .writeMem [tmpE .location, numLit h.value]]) rfl rfl ?_
  rw [runThen_locationS x (d := d) rfl]
  simp [callPrim, wordValue_inIrRange, holesOf, immediate]
  rfl

end

end Sys2Proof.Machine

/-! 16-bit operands in a fragment: a pair by its halves (10_state.md R33, R37; 42_load.md R222) and `SP` (R38). -/

namespace Sys2Proof.Machine

/-! ### The halves of a pair -/

/-- The high half of a pair written. -/
def State.setIrHigh (s : State) (p : IrPair) (v : Byte) : State := s.setIrPair p (join v (lo (s.irPair p)))

/-- The low half of a pair written. -/
def State.setIrLow (s : State) (p : IrPair) (v : Byte) : State := s.setIrPair p (join (hi (s.irPair p)) v)

@[simp] theorem State.irPair_setIrPair (s : State) (p : IrPair) (w : Word) : (s.setIrPair p w).irPair p = w := by
  cases p <;> exact join_hi_lo w

@[simp] theorem State.setIrPair_setIrPair (s : State) (p : IrPair) (v w : Word) :
    (s.setIrPair p v).setIrPair p w = s.setIrPair p w := by
  cases p <;> rfl

@[simp] theorem State.setIrLow_setIrHigh (s : State) (p : IrPair) (h l : Byte) :
    (s.setIrHigh p h).setIrLow p l = s.setIrPair p (join h l) := by
  simp [State.setIrLow, State.setIrHigh]

@[simp] theorem State.setIrHigh_setIrLow (s : State) (p : IrPair) (h l : Byte) :
    (s.setIrLow p l).setIrHigh p h = s.setIrPair p (join h l) := by
  simp [State.setIrLow, State.setIrHigh]

@[simp] theorem irReg_high (s : State) (p : IrPair) : s.irReg p.halves.1 = byteValue (hi (s.irPair p)) := by
  cases p <;> exact congrArg byteValue (hi_join _ _).symm

@[simp] theorem irReg_low (s : State) (p : IrPair) : s.irReg p.halves.2 = byteValue (lo (s.irPair p)) := by
  cases p <;> exact congrArg byteValue (lo_join _ _).symm

section
variable (s : State) (p : IrPair) (ρ : TempEnv) (j : Bool)

theorem setIrHigh_eq (v : Byte) : s.setIrReg p.halves.1 (byteValue v) = some (s.setIrHigh p v) := by
  unfold State.setIrHigh
  cases p <;> rw [IrPair.halves, setIrReg_byte (fun _ => rfl)] <;>
    simp [State.setIrPair, State.irPair, State.setBc, State.setDe, State.setHl, State.setAf, State.setIndex, State.setHalf,
      State.bc, State.de, State.hl, State.af, State.index, State.half]

theorem setIrLow_eq (v : Byte) : s.setIrReg p.halves.2 (byteValue v) = some (s.setIrLow p v) := by
  unfold State.setIrLow
  cases p <;> rw [IrPair.halves, setIrReg_byte (fun _ => rfl)] <;>
    simp [State.setIrPair, State.irPair, State.setBc, State.setDe, State.setHl, State.setAf, State.setIndex, State.setHalf,
      State.bc, State.de, State.hl, State.af, State.index, State.half]

@[simp] theorem assign_high (node : Expr) (v : Byte) :
    Ctx.assign ⟨s, ρ, j⟩ node (.register p.halves.1) (byteValue v) = .ok ⟨s.setIrHigh p v, ρ, j⟩ :=
  assign_register (byteValue_inIrRange v) (setIrHigh_eq s p v) (by cases p <;> rfl) ..

@[simp] theorem assign_low (node : Expr) (v : Byte) :
    Ctx.assign ⟨s, ρ, j⟩ node (.register p.halves.2) (byteValue v) = .ok ⟨s.setIrLow p v, ρ, j⟩ :=
  assign_register (byteValue_inIrRange v) (setIrLow_eq s p v) (by cases p <;> rfl) ..

/-! ### `SET16` (42_load.md R222) -/

variable (rest : List Stmt) (k : Bool → Ctx → Outcome State)

theorem runThen_setPair16_literal (w : Word) :
    runThen (setPair16 p (numLit w.toNat) ++ rest) ⟨s, ρ, j⟩ k = runThen rest ⟨s.setIrPair p w, ρ, j⟩ k := by
  have hhigh : fold (.binary .shr (numLit w.toNat) (numLit 8)) = numLit (hi w).toNat := by
    have h := shr_8_word w
    rw [wordValue, binaryValue, Option.some.injEq] at h
    exact congrArg Expr.literal h
  have hlow : fold (.binary .band (numLit w.toNat) (numLit 0xFF)) = numLit (lo w).toNat := by
    have h := band_255_word w
    rw [wordValue, binaryValue, Option.some.injEq] at h
    exact congrArg Expr.literal h
  have hset : setPair16 p (numLit w.toNat) = [setReg p.halves.1 (numLit (hi w).toNat), setReg p.halves.2 (numLit (lo w).toNat)] := by
    rw [← hhigh, ← hlow]
    rfl
  rw [hset]
  simp

theorem runThen_setPair16_word {e : Expr} {a : Word} (he : ∀ k, evalThen e ⟨s, ρ, j⟩ k = k (wordValue a) ⟨s, ρ, j⟩) :
    runThen (setPair16 p (callE .readMemWord [e]) ++ rest) ⟨s, ρ, j⟩ k =
      loadWord s a fun w => runThen rest ⟨s.setIrPair p w, ρ.set .val (wordValue w), j⟩ k := by
  have hset : setPair16 p (callE .readMemWord [e]) = [.varDecl .val (callE .readMemWord [e]),
      setReg p.halves.1 (shrE (tmpE .val) 8), setReg p.halves.2 (andE (tmpE .val) (numLit 0xFF))] := rfl
  rw [hset]
  simp [callPrim, he, wordValue_inIrRange]

end

end Sys2Proof.Machine

/-! The rows on 16-bit operands: loads, `PUSH` and `POP`, exchanges, `INC`, `DEC` and `ADD` (42_load.md, 45_arith16.md,
48_control_stack.md). -/

namespace Sys2Proof.Machine

@[simp] theorem irReg_a (s : State) : s.irReg .a = byteValue s.a := rfl

@[simp] theorem irReg_f (s : State) : s.irReg .f = byteValue s.f := rfl

@[simp] theorem irReg_sp (s : State) : s.irReg .sp = wordValue s.sp := rfl

/-! ### Sums with a small constant, masked -/

section
variable (node : Expr) (c : Ctx) {n : Int} (h0 : -2 ≤ n) (h1 : n ≤ 2)
include h0 h1

@[simp] theorem orRange_word_add (w : Word) :
    orRange node (binaryValue .add (wordValue w) (.num n)) c = .ok (.num (w.toNat + n), c) :=
  orRange_small node c (by omega) (by omega)

@[simp] theorem orRange_word_sub (w : Word) :
    orRange node (binaryValue .sub (wordValue w) (.num n)) c = .ok (.num (w.toNat - n), c) :=
  orRange_small node c (by omega) (by omega)

@[simp] theorem orRange_byte_add (v : Byte) :
    orRange node (binaryValue .add (byteValue v) (.num n)) c = .ok (.num (v.toNat + n), c) :=
  orRange_small node c (by omega) (by omega)

@[simp] theorem orRange_byte_sub (v : Byte) :
    orRange node (binaryValue .sub (byteValue v) (.num n)) c = .ok (.num (v.toNat - n), c) :=
  orRange_small node c (by omega) (by omega)

end

@[simp] theorem ofInt_toNat_add {w : Nat} (x : BitVec w) (n : Int) : BitVec.ofInt w (x.toNat + n) = x + BitVec.ofInt w n := by
  rw [BitVec.ofInt_add, BitVec.ofInt_natCast, BitVec.ofNat_toNat, BitVec.setWidth_eq]

@[simp] theorem ofInt_toNat_sub {w : Nat} (x : BitVec w) (n : Int) : BitVec.ofInt w (x.toNat - n) = x - BitVec.ofInt w n := by
  rw [ofInt_sub, BitVec.ofInt_natCast, BitVec.ofNat_toNat, BitVec.setWidth_eq]

/-- `SP <- (SP + 2) & 0xFFFF` in a fragment. -/
theorem runThen_bumpSp_two (s : State) (ρ : TempEnv) (j : Bool) (rest : List Stmt) (k : Bool → Ctx → Outcome State) :
    runThen (bumpSp 2 :: rest) ⟨s, ρ, j⟩ k = runThen rest ⟨{ s with sp := s.sp + 2 }, ρ, j⟩ k := by
  simp [bumpSp]

section
variable (s : State)

/-! ### 16-bit loads -/

theorem denotes_ldDdNn (p : RegPair) (nn : Word) : Denotes (.ldDdNn p nn) s := by
  have pair (q : IrPair) := runThen_setPair16_literal s q TempEnv.empty false [] (finish 3) nn
  cases p with
  | sp =>
    refine denotes_of_run (ss := fun h => [setReg .sp (numLit h.value)]) rfl rfl ?_
    simp [holesOf, immediate]
    rfl
  | bc => exact denotes_of_run (ss := fun h => setPair16 .bc (numLit h.value)) rfl rfl (pair .bc)
  | de => exact denotes_of_run (ss := fun h => setPair16 .de (numLit h.value)) rfl rfl (pair .de)
  | hl => exact denotes_of_run (ss := fun h => setPair16 .hl (numLit h.value)) rfl rfl (pair .hl)

theorem denotes_ldXyNn (x : IndexReg) (nn : Word) : Denotes (.ldXyNn x nn) s := by
  refine denotes_of_run (ss := fun h => setPair16 (IndexReg.irPair x) (numLit h.value)) rfl (by cases x <;> rfl) ?_
  refine (runThen_setPair16_literal s (IndexReg.irPair x) TempEnv.empty false [] _ nn).trans ?_
  simp
  rfl

theorem runThen_ldPairAbs (p : IrPair) (nn : Word) (len : Nat) :
    runThen (setPair16 p (callE .readMemWord [numLit nn.toNat])) ⟨s, TempEnv.empty, false⟩ (finish len) =
      loadWord s nn fun w => fallThrough (s.setIrPair p w) len := by
  have h := runThen_setPair16_word s p TempEnv.empty false [] (finish len) (fun k => evalThen_word ⟨s, TempEnv.empty, false⟩ k nn)
  simpa using h

theorem denotes_ldHlAbs (nn : Word) : Denotes (.ldHlAbs nn) s :=
  denotes_of_run (ss := fun h => setPair16 .hl (callE .readMemWord [numLit h.value])) rfl rfl (runThen_ldPairAbs s .hl nn 3)

theorem denotes_ldDdAbs (p : RegPair) (nn : Word) : Denotes (.ldDdAbs p nn) s := by
  cases p with
  | sp =>
    refine denotes_of_run (ss := fun h => [setReg .sp (callE .readMemWord [numLit h.value])]) rfl rfl ?_
    simp [callPrim, holesOf, immediate]
    rfl
  | bc => exact denotes_of_run (ss := fun h => setPair16 .bc (callE .readMemWord [numLit h.value])) rfl rfl (runThen_ldPairAbs s .bc nn 4)
  | de => exact denotes_of_run (ss := fun h => setPair16 .de (callE .readMemWord [numLit h.value])) rfl rfl (runThen_ldPairAbs s .de nn 4)
  | hl => exact denotes_of_run (ss := fun h => setPair16 .hl (callE .readMemWord [numLit h.value])) rfl rfl (runThen_ldPairAbs s .hl nn 4)

theorem denotes_ldXyAbs (x : IndexReg) (nn : Word) : Denotes (.ldXyAbs x nn) s := by
  refine denotes_of_run (ss := fun h => setPair16 (IndexReg.irPair x) (callE .readMemWord [numLit h.value])) rfl
    (by cases x <;> rfl) ((runThen_ldPairAbs s (IndexReg.irPair x) nn 4).trans ?_)
  simp only [setIrPair_index]
  rfl

theorem denotes_ldSpHl : Denotes .ldSpHl s := by
  refine denotes_of_run (ss := fun _ => [setReg .sp hlE]) rfl rfl ?_
  simp
  rfl

theorem denotes_ldSpXy (x : IndexReg) : Denotes (.ldSpXy x) s := by
  refine denotes_of_run (ss := fun _ => [setReg .sp (callE (.getPair (IndexReg.irPair x)) [])]) rfl (by cases x <;> rfl) ?_
  simp [callPrim]
  rfl

/-! ### 16-bit stores -/

/-- The address of the second byte, modulo `2^16` (20_memory.md R74). -/
theorem evalThen_nextWord (nn : Word) (c : Ctx) (k : Value → Ctx → Outcome State) :
    evalThen (numLit (((nn.toNat : Int) + 1) % 65536)) c k = k (wordValue (nn + 1)) c := by
  have h : ((nn.toNat : Int) + 1) % 65536 = (nn + 1).toNat := by
    rw [BitVec.toNat_add]
    simp
  rw [h, evalThen_word]

@[simp] theorem irPair_writeByte (p : IrPair) (a : Word) (v : Byte) : (s.writeByte a v).irPair p = s.irPair p := by
  cases p <;> rfl

theorem runThen_storePair (p : IrPair) (nn : Word) (len : Nat) :
    runThen [callS .writeMem [numLit nn.toNat, regE p.halves.2],
        callS .writeMem [numLit (((nn.toNat : Int) + 1) % 65536), regE p.halves.1]] ⟨s, TempEnv.empty, false⟩ (finish len) =
      storeWord s nn (s.irPair p) fun s1 => fallThrough s1 len := by
  simp [callPrim, evalThen_nextWord, storeWord, storeByte]
  rfl

theorem denotes_storePair {i : Instr} {nn : Word} (p : IrPair) (hw : i.wellFormed = true) (hcall : callOf i = .ldNn (.pair p))
    (hp : p.isWord = true) (hvalue : immediate i = nn.toNat)
    (hexec : exec i s = storeWord s nn (s.irPair p) fun s1 => fallThrough s1 i.length) : Denotes i s := by
  refine denotes_of_run (ss := fun h => [callS .writeMem [numLit h.value, regE p.halves.2],
    callS .writeMem [numLit ((h.value + 1) % 65536), regE p.halves.1]]) hw ?_ ?_
  · rw [synth, hcall, buildCall, ldNnT, if_pos hp]
  · rw [hexec, ← runThen_storePair, holesOf, hvalue]

theorem denotes_ldAbsHl (nn : Word) : Denotes (.ldAbsHl nn) s := denotes_storePair s .hl rfl rfl rfl rfl rfl

theorem denotes_ldAbsDd (p : RegPair) (nn : Word) : Denotes (.ldAbsDd p nn) s := by
  cases p with
  | sp =>
    refine denotes_of_run (ss := fun h => [callS .writeMem [numLit h.value, andE (regE .sp) (numLit 0xFF)],
      callS .writeMem [numLit ((h.value + 1) % 65536), shrE (regE .sp) 8]]) rfl rfl ?_
    simp [callPrim, evalThen_nextWord, holesOf, immediate, State.irReg]
    rfl
  | bc => exact denotes_storePair s .bc rfl rfl rfl rfl rfl
  | de => exact denotes_storePair s .de rfl rfl rfl rfl rfl
  | hl => exact denotes_storePair s .hl rfl rfl rfl rfl rfl

theorem denotes_ldAbsXy (x : IndexReg) (nn : Word) : Denotes (.ldAbsXy x nn) s := by
  refine denotes_storePair s (IndexReg.irPair x) (nn := nn) rfl rfl (by cases x <;> rfl) rfl ?_
  rw [irPair_index]
  rfl

/-! ### `PUSH`, `POP` and `EX (SP)` -/

theorem denotes_push {i : Instr} (p : IrPair) (hw : i.wellFormed = true) (hcall : callOf i = .push (.pair p))
    (hexec : exec i s = push16 s (s.irPair p) fun s1 => fallThrough s1 i.length) : Denotes i s := by
  refine denotes_of_run (ss := fun _ => [callS .push2 [regE p.halves.1, regE p.halves.2]]) hw ?_ ?_
  · rw [synth, hcall]
    rfl
  · rw [hexec]
    simp [callPrim]

theorem denotes_pushQq (p : StackPair) : Denotes (.pushQq p) s :=
  denotes_push s (stackIr p) rfl rfl (by rw [irPair_stackIr]; rfl)

theorem denotes_pushXy (x : IndexReg) : Denotes (.pushXy x) s :=
  denotes_push s (IndexReg.irPair x) rfl rfl (by rw [irPair_index]; rfl)

theorem denotes_pop {i : Instr} (p : IrPair) (hw : i.wellFormed = true) (hcall : callOf i = .pop (.pair p))
    (hexec : exec i s = pop16 s fun v s1 => fallThrough (s1.setIrPair p v) i.length) : Denotes i s := by
  refine denotes_of_run (ss := fun _ => setPair16 p (callE .readMemWord [regE .sp]) ++ [bumpSp 2]) hw ?_ ?_
  · rw [synth, hcall]
    rfl
  · have hsp (w : Word) : fallThrough { s.setIrPair p w with sp := (s.setIrPair p w).sp + 2 } i.length =
        fallThrough ({ s with sp := s.sp + 2 }.setIrPair p w) i.length := by
      cases p <;> rfl
    rw [hexec, runThen_setPair16_word (a := s.sp) _ _ _ _ _ _ fun k => evalThen_register ..]
    simp only [runThen_bumpSp_two, runThen_nil]
    exact congrArg (loadWord s s.sp) (funext hsp)

theorem denotes_popQq (p : StackPair) : Denotes (.popQq p) s :=
  denotes_pop s (stackIr p) rfl rfl (by simp only [setIrPair_stackIr]; rfl)

theorem denotes_popXy (x : IndexReg) : Denotes (.popXy x) s :=
  denotes_pop s (IndexReg.irPair x) rfl rfl (by simp only [setIrPair_index]; rfl)

theorem denotes_exSp {i : Instr} (p : IrPair) (hw : i.wellFormed = true) (hcall : callOf i = .exSp (.pair p))
    (hp : p.isPointer = true)
    (hexec : exec i s = exchangeTop s (s.irPair p) fun v s1 => fallThrough (s1.setIrPair p v) i.length) : Denotes i s := by
  refine denotes_of_run (ss := fun _ => [.varDecl .temp (callE .readMemWord [regE .sp]),
        callS .writeMem [regE .sp, regE p.halves.2],
        callS .writeMem [andE (addE (regE .sp) (numLit 1)) (numLit 0xFFFF), regE p.halves.1],
        setReg p.halves.2 (andE (tmpE .temp) (numLit 0xFF)), setReg p.halves.1 (shrE (tmpE .temp) 8)]) hw ?_ ?_
  · rw [synth, hcall, buildCall, exSpT, if_pos hp]
    rfl
  · rw [hexec]
    simp [callPrim, wordValue_inIrRange, exchangeTop, storeWord, storeByte]
    rfl

theorem denotes_exSpHl : Denotes .exSpHl s := denotes_exSp s .hl rfl rfl rfl rfl

theorem denotes_exSpXy (x : IndexReg) : Denotes (.exSpXy x) s :=
  denotes_exSp s (IndexReg.irPair x) rfl rfl (by cases x <;> rfl) (by simp only [irPair_index, setIrPair_index]; rfl)

/-! ### `EX DE,HL`, `EX AF,AF'` and `EXX` -/

theorem runThen_swap {s : State} {x y : IrReg} {v w : Byte} {set set' : Byte → State} (hx : s.irReg x = byteValue v)
    (hy : s.irReg y = byteValue w) (hset : ∀ u : Value, s.setIrReg x u = u.u8.map set)
    (hset' : ∀ u : Value, (set w).setIrReg y u = u.u8.map set') (hxpc : (x == .pc) = false) (hypc : (y == .pc) = false)
    (ρ : TempEnv) (j : Bool) (rest : List Stmt) (k : Bool → Ctx → Outcome State) :
    runThen (swap x y ++ rest) ⟨s, ρ, j⟩ k = runThen rest ⟨set' v, ρ.set .temp (byteValue v), j⟩ k := by
  simp [swap, hx, hy, byteValue_inIrRange, assign_register (byteValue_inIrRange _) (setIrReg_byte hset _) hxpc,
    assign_register (byteValue_inIrRange _) (setIrReg_byte hset' _) hypc]

theorem denotes_exDeHl : Denotes .exDeHl s := by
  refine denotes_of_run (ss := fun _ => swap .d .h ++ (swap .e .l ++ [])) rfl rfl ?_
  iterate 2 rw [runThen_swap rfl rfl (fun _ => rfl) (fun _ => rfl) rfl rfl]
  rw [runThen_nil]
  rfl

theorem denotes_exAfAf : Denotes .exAfAf s := by
  refine denotes_of_run (ss := fun _ => swap .a .a' ++ (swap .f .f' ++ [])) rfl rfl ?_
  iterate 2 rw [runThen_swap rfl rfl (fun _ => rfl) (fun _ => rfl) rfl rfl]
  rw [runThen_nil]
  rfl

theorem denotes_exx : Denotes .exx s := by
  refine denotes_of_run (ss := fun _ => swap .b .b' ++ (swap .c .c' ++ (swap .d .d' ++ (swap .e .e' ++ (swap .h .h' ++
    (swap .l .l' ++ [])))))) rfl rfl ?_
  iterate 6 rw [runThen_swap rfl rfl (fun _ => rfl) (fun _ => rfl) rfl rfl]
  rw [runThen_nil]
  rfl

end

end Sys2Proof.Machine

/-! `INC` and `DEC` of a pair, and `ADD` (45_arith16.md R315 to R323). -/

namespace Sys2Proof.Machine

/-! ### A pair counted by its halves (45_arith16.md R320, R322) -/

theorem join_inc (w : Word) : (if lo w + 1#8 = 0#8 then join (hi w + 1#8) (lo w + 1#8) else join (hi w) (lo w + 1#8)) = w + 1#16 := by
  have := w.isLt
  split <;> rename_i h <;> simp only [← BitVec.toNat_inj, join_toNat, BitVec.toNat_add, BitVec.toNat_ofNat, hi, lo] at h ⊢ <;> omega

theorem join_dec (w : Word) : (if lo w - 1#8 = 255#8 then join (hi w - 1#8) (lo w - 1#8) else join (hi w) (lo w - 1#8)) = w - 1#16 := by
  have := w.isLt
  split <;> rename_i h <;> simp only [← BitVec.toNat_inj, join_toNat, BitVec.toNat_sub, BitVec.toNat_ofNat, hi, lo] at h ⊢ <;> omega

@[simp] theorem irPair_setIrLow (s : State) (p : IrPair) (v : Byte) : (s.setIrLow p v).irPair p = join (hi (s.irPair p)) v := by
  simp [State.setIrLow]

section
variable (s : State)

theorem runThen_incPair (p : IrPair) (len : Nat) :
    runThen [setReg p.halves.2 (andE (addE (regE p.halves.2) (numLit 1)) (numLit 0xFF)),
        ifS (.binary .eq (regE p.halves.2) (numLit 0))
          [setReg p.halves.1 (andE (addE (regE p.halves.1) (numLit 1)) (numLit 0xFF))]] ⟨s, TempEnv.empty, false⟩ (finish len) =
      fallThrough (s.setIrPair p (s.irPair p + 1)) len := by
  simp [← join_inc, apply_ite (s.setIrPair p), apply_ite (fallThrough · len), State.setIrLow, State.setIrHigh]

theorem runThen_decPair (p : IrPair) (len : Nat) :
    runThen [setReg p.halves.2 (andE (subE (regE p.halves.2) (numLit 1)) (numLit 0xFF)),
        ifS (.binary .eq (regE p.halves.2) (numLit 255))
          [setReg p.halves.1 (andE (subE (regE p.halves.1) (numLit 1)) (numLit 0xFF))]] ⟨s, TempEnv.empty, false⟩ (finish len) =
      fallThrough (s.setIrPair p (s.irPair p - 1)) len := by
  simp [← join_dec, apply_ite (s.setIrPair p), apply_ite (fallThrough · len), State.setIrLow, State.setIrHigh]

theorem denotes_incPair {i : Instr} (p : IrPair) (hw : i.wellFormed = true) (hcall : callOf i = .inc16 (.pair p))
    (hp : p.isWord = true) (hexec : exec i s = fallThrough (s.setIrPair p (s.irPair p + 1)) i.length) : Denotes i s := by
  refine denotes_of_run (ss := fun _ => [setReg p.halves.2 (andE (addE (regE p.halves.2) (numLit 1)) (numLit 0xFF)),
        ifS (.binary .eq (regE p.halves.2) (numLit 0))
          [setReg p.halves.1 (andE (addE (regE p.halves.1) (numLit 1)) (numLit 0xFF))]]) hw ?_ ?_
  · rw [synth, hcall, buildCall, inc16T, if_pos hp]
    rfl
  · rw [hexec, runThen_incPair]

theorem denotes_incSs (p : RegPair) : Denotes (.incSs p) s := by
  cases p with
  | sp =>
    refine denotes_of_run (ss := fun _ => [bumpSp 1]) rfl rfl ?_
    simp [bumpSp]
    rfl
  | bc => exact denotes_incPair s .bc rfl rfl rfl rfl
  | de => exact denotes_incPair s .de rfl rfl rfl rfl
  | hl => exact denotes_incPair s .hl rfl rfl rfl rfl

theorem denotes_incXy (x : IndexReg) : Denotes (.incXy x) s :=
  denotes_incPair s (IndexReg.irPair x) rfl rfl (by cases x <;> rfl) (by rw [irPair_index, setIrPair_index]; rfl)

theorem denotes_decPair {i : Instr} (p : IrPair) (hw : i.wellFormed = true) (hcall : callOf i = .dec16 (.pair p))
    (hp : p.isWord = true) (hexec : exec i s = fallThrough (s.setIrPair p (s.irPair p - 1)) i.length) : Denotes i s := by
  refine denotes_of_run (ss := fun _ => [setReg p.halves.2 (andE (subE (regE p.halves.2) (numLit 1)) (numLit 0xFF)),
        ifS (.binary .eq (regE p.halves.2) (numLit 255))
          [setReg p.halves.1 (andE (subE (regE p.halves.1) (numLit 1)) (numLit 0xFF))]]) hw ?_ ?_
  · rw [synth, hcall, buildCall, dec16T, if_pos hp]
    rfl
  · rw [hexec, runThen_decPair]

theorem denotes_decSs (p : RegPair) : Denotes (.decSs p) s := by
  cases p with
  | sp =>
    refine denotes_of_run (ss := fun _ => [setReg .sp (andE (subE (regE .sp) (numLit 1)) (numLit 0xFFFF))]) rfl rfl ?_
    simp
    rfl
  | bc => exact denotes_decPair s .bc rfl rfl rfl rfl
  | de => exact denotes_decPair s .de rfl rfl rfl rfl
  | hl => exact denotes_decPair s .hl rfl rfl rfl rfl

theorem denotes_decXy (x : IndexReg) : Denotes (.decXy x) s :=
  denotes_decPair s (IndexReg.irPair x) rfl rfl (by cases x <;> rfl) (by rw [irPair_index, setIrPair_index]; rfl)

/-! ### `ADD` -/

/-- `ADD dst,src` with the second operand `w`. -/
theorem denotes_add16 {i : Instr} (p : IrPair) {d : Desc} {e : Expr} {w : Word} (hw : i.wellFormed = true)
    (hcall : callOf i = .add16 (.pair p) d) (he : addE16 p d = some e)
    (hv : ∀ k, evalThen e ⟨s, TempEnv.empty, false⟩ k = k (wordValue w) ⟨s, TempEnv.empty, false⟩)
    (hexec : exec i s = fallThrough ((s.add16 (s.irPair p) w).2.setIrPair p (s.add16 (s.irPair p) w).1) i.length) :
    Denotes i s := by
  refine denotes_of_run (ss := fun _ => [callS (.setPair p) [callE .add16 [callE (.getPair p) [], e]]]) hw ?_ ?_
  · rw [synth, hcall, buildCall, add16T]
    simp only [he]
    rfl
  · rw [hexec]
    simp [callPrim, hv]

/-- A pair read by the accessor. -/
theorem evalThen_getPair (p : IrPair) (ρ : TempEnv) (j : Bool) (k : Value → Ctx → Outcome State) :
    evalThen (callE (.getPair p) []) ⟨s, ρ, j⟩ k = k (wordValue (s.irPair p)) ⟨s, ρ, j⟩ := by
  simp [callPrim]

theorem denotes_addHlSs (p : RegPair) : Denotes (.addHlSs p) s := by
  cases p with
  | sp => exact denotes_add16 s .hl rfl rfl rfl (fun k => evalThen_register ..) rfl
  | bc => exact denotes_add16 s .hl rfl rfl rfl (evalThen_getPair s .bc _ _) rfl
  | de => exact denotes_add16 s .hl rfl rfl rfl (evalThen_getPair s .de _ _) rfl
  | hl => exact denotes_add16 s .hl rfl rfl rfl (evalThen_getPair s .hl _ _) rfl

theorem denotes_addXyPp (x : IndexReg) (p : IndexAddPair) : Denotes (.addXyPp x p) s := by
  have hexec : exec (.addXyPp x p) s = fallThrough ((s.add16 (s.irPair (IndexReg.irPair x)) (s.indexAddPair x p)).2.setIrPair
      (IndexReg.irPair x) (s.add16 (s.irPair (IndexReg.irPair x)) (s.indexAddPair x p)).1) 2 := by
    rw [irPair_index, setIrPair_index]
    rfl
  cases p with
  | sp => exact denotes_add16 s _ rfl rfl (by cases x <;> rfl) (fun k => evalThen_register ..) hexec
  | bc => exact denotes_add16 s _ rfl rfl (by cases x <;> rfl) (evalThen_getPair s .bc _ _) hexec
  | de => exact denotes_add16 s _ rfl rfl (by cases x <;> rfl) (evalThen_getPair s .de _ _) hexec
  | xy =>
    rw [show s.indexAddPair x .xy = s.irPair (IndexReg.irPair x) from (irPair_index s x).symm] at hexec
    exact denotes_add16 s _ rfl rfl (by cases x <;> rfl) (evalThen_getPair s (IndexReg.irPair x) _ _) hexec

end

end Sys2Proof.Machine

/-! `ADC` and `SBC` (45_arith16.md R317, 41_alu_flags.md R189, R190): each flag is one masked bit of an integer that may be negative, and
the same bit of the 17-bit vector that the rule computes with. -/

namespace Sys2Proof.Machine

/-! ### One bit of an integer -/

theorem testBit_ediv_two_pow (n : Int) (k i : Nat) : Int.testBit (n / 2 ^ k) i = Int.testBit n (i + k) := by
  cases n with
  | ofNat m => exact Nat.testBit_div_two_pow m i
  | negSucc m =>
    have hdiv : Int.negSucc m / 2 ^ k = .negSucc (m / 2 ^ k) := by
      rw [Int.negSucc_ediv _ (by positivity), Int.negSucc_eq]
      norm_cast
    rw [hdiv, Int.testBit, Int.testBit, Nat.testBit_div_two_pow]

theorem intAnd_two_pow (n : Int) (i : Nat) : intAnd n (2 ^ i : Nat) = if Int.testBit n i then 2 ^ i else 0 := by
  cases n with
  | ofNat m =>
    have h : m &&& 2 ^ i = if m.testBit i then 2 ^ i else 0 := by
      rw [Nat.and_two_pow]
      cases m.testBit i <;> simp
    calc intAnd (.ofNat m) (2 ^ i : Nat) = ((m &&& 2 ^ i : Nat) : Int) := rfl
      _ = if m.testBit i then 2 ^ i else 0 := by rw [h]; push_cast; rfl
  | negSucc m =>
    have h : 2 ^ i ^^^ (2 ^ i &&& m) = if m.testBit i then 0 else 2 ^ i := by
      rw [Nat.and_comm, Nat.and_two_pow]
      cases m.testBit i <;> simp
    calc intAnd (.negSucc m) (2 ^ i : Nat) = ((2 ^ i ^^^ (2 ^ i &&& m) : Nat) : Int) := rfl
      _ = if !m.testBit i then 2 ^ i else 0 := by rw [h]; cases m.testBit i <;> simp

theorem getLsbD_ofInt {w i : Nat} (h : i < w) (n : Int) : (BitVec.ofInt w n).getLsbD i = Int.testBit n i := by
  cases n with
  | ofNat m =>
    rw [Int.ofNat_eq_natCast, BitVec.ofInt_natCast, BitVec.getLsbD_ofNat, decide_eq_true h, Bool.true_and]
    rfl
  | negSucc m =>
    rw [BitVec.ofInt_negSucc_eq_not_ofNat, BitVec.getLsbD_not, BitVec.getLsbD_ofNat, decide_eq_true h, Bool.true_and, Bool.true_and]
    rfl

section
variable {w : Nat} (x y : Int)

theorem ofInt_intAnd : BitVec.ofInt w (intAnd x y) = BitVec.ofInt w x &&& BitVec.ofInt w y :=
  BitVec.eq_of_getLsbD_eq fun i hi => by
    rw [BitVec.getLsbD_and, getLsbD_ofInt hi, getLsbD_ofInt hi, getLsbD_ofInt hi, testBit_intAnd]

theorem ofInt_intXor : BitVec.ofInt w (intXor x y) = BitVec.ofInt w x ^^^ BitVec.ofInt w y :=
  BitVec.eq_of_getLsbD_eq fun i hi => by
    rw [BitVec.getLsbD_xor, getLsbD_ofInt hi, getLsbD_ofInt hi, getLsbD_ofInt hi, testBit_intXor, Bool.bne_eq_xor]

end

/-! ### The rules R189 and R190, bit by bit -/

section
variable (n : Int)

/-- A bit of the 17-bit vector, moved to bit `i` of `F`. -/
theorem setWidth_shift_and {i k : Nat} (hi : i < 8) (hk : k + i < 17) :
    (BitVec.ofInt 17 n >>> k &&& BitVec.twoPow 17 i).setWidth 8 = flagIf (Int.testBit n (k + i)) (BitVec.ofNat 8 (2 ^ i)) := by
  have h : (BitVec.twoPow 17 i).setWidth 8 = BitVec.ofNat 8 (2 ^ i) := by
    interval_cases i <;> rfl
  rw [BitVec.and_twoPow, BitVec.getLsbD_ushiftRight, getLsbD_ofInt hk, flagIf]
  split
  · rw [h]
  · rfl

theorem setWidth_bit_12 : (BitVec.ofInt 17 n >>> 8 &&& 0x10).setWidth 8 = flagIf (Int.testBit n 12) 0x10 :=
  setWidth_shift_and n (i := 4) (by decide) (by decide)

theorem setWidth_bit_16 : (BitVec.ofInt 17 n >>> 16 &&& 0x01).setWidth 8 = flagIf (Int.testBit n 16) 0x01 :=
  setWidth_shift_and n (i := 0) (by decide) (by decide)

theorem setWidth_bit_15 : (BitVec.ofInt 17 n >>> 8 &&& 0x80).setWidth 8 = flagIf (Int.testBit n 15) 0x80 :=
  setWidth_shift_and n (i := 7) (by decide) (by decide)

theorem setWidth_overflow : ((BitVec.ofInt 17 n &&& 0x8000) >>> 13).setWidth 8 = flagIf (Int.testBit n 15) 0x04 := by
  have h : BitVec.ofInt 17 n &&& 0x8000 = if (BitVec.ofInt 17 n).getLsbD 15 then 0x8000#17 else 0#17 := BitVec.and_twoPow _ 15
  rw [h, getLsbD_ofInt (by decide), flagIf]
  split <;> rfl

theorem setWidth_ofInt_17 : (BitVec.ofInt 17 n).setWidth 16 = BitVec.ofInt 16 n := by
  simp only [← BitVec.toNat_inj, BitVec.toNat_setWidth, BitVec.toNat_ofInt]
  omega

theorem setWidth_zero :
    ((if BitVec.ofInt 17 n &&& 0xFFFF ≠ 0 then 0 else 0x40 : Nat) : BitVec 17).setWidth 8 = flagIf (BitVec.ofInt 16 n == 0) 0x40 := by
  have hmask : BitVec.ofInt 17 n &&& 0xFFFF = 0 ↔ BitVec.ofInt 16 n = 0 := by
    rw [← setWidth_ofInt_17, ← BitVec.toNat_inj, ← BitVec.toNat_inj, BitVec.toNat_and, BitVec.toNat_setWidth]
    exact Iff.of_eq (congrArg (· = 0) (Nat.and_two_pow_sub_one_eq_mod _ 16))
  rw [flagIf]
  simp only [ne_eq, hmask, beq_iff_eq]
  by_cases h : BitVec.ofInt 16 n = 0
  · rw [if_neg (not_not.2 h), if_pos h]
    rfl
  · rw [if_pos h, if_neg h]
    rfl

end

/-- `H`, of operands `x` and `y` and their sum or difference `n`. -/
def half16 (x y : Word) (n : Int) : Byte := flagIf (Int.testBit (intXor (intXor x.toNat n) y.toNat) 12) 0x10

/-- `C`, `S` and `Z` of a sum or difference `n`, beside the flags `f`. -/
def flags16 (f : Byte) (n : Int) : Byte :=
  f ||| flagIf (Int.testBit n 16) 0x01 ||| flagIf (Int.testBit n 15) 0x80 ||| flagIf (BitVec.ofInt 16 n == 0) 0x40

/-- The bits whose bit 15 is the overflow of an addition (41_alu_flags.md R189). -/
def addOverflow16 (x y : Word) (n : Int) : Int := intAnd (intXor (intXor y.toNat x.toNat) 0x8000) (intXor y.toNat n)

/-- The bits whose bit 15 is the overflow of a subtraction (R190). -/
def subOverflow16 (x y : Word) (n : Int) : Int := intAnd (intXor y.toNat x.toNat) (intXor x.toNat n)

theorem ofInt_17_toNat (x : Word) : BitVec.ofInt 17 x.toNat = x.setWidth 17 := by
  rw [BitVec.ofInt_natCast, BitVec.ofNat_toNat]

theorem adc16_eq (x y : Word) (cin : Bool) {n : Int} (hn : n = x.toNat + y.toNat + cin.toNat) :
    adc16 x y cin = (BitVec.ofInt 16 n,
      flags16 (half16 x y n) n ||| flagIf (Int.testBit (addOverflow16 x y n) 15) 0x04) := by
  have ht : x.setWidth 17 + y.setWidth 17 + BitVec.ofNat 17 cin.toNat = BitVec.ofInt 17 n := by
    rw [hn, BitVec.ofInt_add, BitVec.ofInt_add, ofInt_17_toNat, ofInt_17_toNat, BitVec.ofInt_natCast]
  rw [flags16, half16, ← setWidth_bit_12, ← setWidth_bit_16, ← setWidth_bit_15, ← setWidth_zero, ← setWidth_overflow, ← setWidth_ofInt_17]
  simp only [adc16, ht, BitVec.setWidth_or, addOverflow16, ofInt_intAnd, ofInt_intXor, ofInt_17_toNat]
  rfl

theorem sbc16_eq (x y : Word) (cin : Bool) {n : Int} (hn : n = x.toNat - y.toNat - cin.toNat) :
    sbc16 x y cin = (BitVec.ofInt 16 n,
      flags16 (half16 x y n ||| 0x02) n ||| flagIf (Int.testBit (subOverflow16 x y n) 15) 0x04) := by
  have ht : x.setWidth 17 - y.setWidth 17 - BitVec.ofNat 17 cin.toNat = BitVec.ofInt 17 n := by
    rw [hn, ofInt_sub, ofInt_sub, ofInt_17_toNat, ofInt_17_toNat, BitVec.ofInt_natCast]
  rw [flags16, half16, ← setWidth_bit_12, ← setWidth_bit_16, ← setWidth_bit_15, ← setWidth_zero, ← setWidth_overflow, ← setWidth_ofInt_17]
  simp only [sbc16, ht, BitVec.setWidth_or, subOverflow16, ofInt_intAnd, ofInt_intXor, ofInt_17_toNat]
  rfl

end Sys2Proof.Machine

/-! The fragments of `ADC` and `SBC` (45_arith16.md R317), flag by flag. -/

namespace Sys2Proof.Machine

theorem evalExpr_const (c : Ctx) {n : Int} (h0 : -131072 ≤ n) (h1 : n ≤ 131072) : evalExpr (numLit n) c = .ok (.num n, c) :=
  (evalExpr_numLit n c).trans (rangedResult_of_inIrRange ((inIrRange_iff n).2 (by omega)) _ _)

theorem ne_word_zero (w : Word) : binaryValue .ne (wordValue w) (.num 0) = some (.bool (w != 0)) := by
  simp only [wordValue, binaryValue, Option.some.injEq, Value.bool.injEq]
  rw [Bool.eq_iff_iff, decide_eq_true_eq, bne_iff_ne, Ne, Nat.cast_eq_zero, Ne, ← BitVec.toNat_inj]
  rfl

/-- `H:L` and the temporaries of the fragment. -/
def adcX : Expr := callE (.getPair .hl) []
def adcY : Expr := tmpE .val
def adcT : Expr := tmpE .temp

def adcSumE : Expr := addE (addE adcX adcY) (andE (regE .f) (numLit 0x01))

def sbcSumE : Expr := subE (subE adcX adcY) (andE (regE .f) (numLit 0x01))

def half16E : Expr := andE (shrE (xorE (xorE adcX adcT) adcY) 8) (numLit 0x10)

def flags16E (f : Expr) : Expr :=
  orE (orE (orE f (andE (shrE adcT 16) (numLit 0x01))) (andE (shrE adcT 8) (numLit 0x80)))
    (.conditional (.binary .ne (andE adcT (numLit 0xFFFF)) (numLit 0)) (numLit 0) (numLit 0x40))

def overflow16E (e : Expr) : Expr := shrE (andE e (numLit 0x8000)) 13

section
variable {c : Ctx} {e : Expr} {n : Int} (he : evalExpr e c = .ok (.num n, c))
include he

theorem evalExpr_shrBit (i k : Nat) (hi : i < 8) (hk : k ≤ 16) :
    evalExpr (andE (shrE e k) (numLit (2 ^ i : Nat))) c =
      .ok (byteValue (flagIf (Int.testBit n (k + i)) (BitVec.ofNat 8 (2 ^ i))), c) := by
  have hlt : 2 ^ i < 256 := Nat.pow_lt_pow_right (by decide) hi
  have hbit : intAnd (n / 2 ^ k) (2 ^ i : Nat) = (flagIf (Int.testBit n (k + i)) (BitVec.ofNat 8 (2 ^ i))).toNat := by
    rw [intAnd_two_pow, testBit_ediv_two_pow, Nat.add_comm i k, flagIf]
    split
    · rw [BitVec.toNat_ofNat, Nat.mod_eq_of_lt hlt, Nat.cast_pow]
      rfl
    · rfl
  have hshift := evalExpr_shr k he (evalExpr_const c (n := k) (by omega) (by omega))
  rw [byteValue, ← hbit]
  have hmask : ((2 ^ i : Nat) : Int) ≤ 131072 := by exact_mod_cast hlt.le.trans (by decide)
  exact evalExpr_band hshift (evalExpr_const c (Int.le_trans (by decide) (Int.natCast_nonneg _)) hmask)

theorem evalExpr_overflow16E : evalExpr (overflow16E e) c = .ok (byteValue (flagIf (Int.testBit n 15) 0x04), c) := by
  have hbit : intAnd n 0x8000 / 2 ^ 13 = (flagIf (Int.testBit n 15) 0x04).toNat := by
    have h : intAnd n 0x8000 = if Int.testBit n 15 then 2 ^ 15 else 0 := intAnd_two_pow n 15
    rw [h, flagIf]
    split <;> rfl
  rw [byteValue, ← hbit]
  exact evalExpr_shr 13 (evalExpr_band he (evalExpr_const c (by decide) (by decide))) (evalExpr_const c (by decide) (by decide))

theorem evalExpr_low16E : evalExpr (andE e (numLit 0xFFFF)) c = .ok (wordValue (BitVec.ofInt 16 n), c) := by
  have h := evalExpr_band he (evalExpr_const c (n := 0xFFFF) (by decide) (by decide))
  have hmask := band_65535 n
  rw [binaryValue, Option.some.injEq] at hmask
  rwa [hmask] at h

theorem evalExpr_zeroE :
    evalExpr (.conditional (.binary .ne (andE e (numLit 0xFFFF)) (numLit 0)) (numLit 0) (numLit 0x40)) c =
      .ok (byteValue (flagIf (BitVec.ofInt 16 n == 0) 0x40), c) := by
  have hne : evalExpr (.binary .ne (andE e (numLit 0xFFFF)) (numLit 0)) c = .ok (.bool (BitVec.ofInt 16 n != 0), c) := by
    have h := evalExpr_binary_of_ne (op := .ne) nofun nofun (evalExpr_low16E he) (evalExpr_const c (n := 0) (by decide) (by decide))
    rwa [ne_word_zero, orRange_bool] at h
  rw [evalExpr_conditional hne, truthy_bool]
  cases hz : BitVec.ofInt 16 n == 0
  · rw [bne, hz]
    exact evalExpr_const c (by decide) (by decide)
  · rw [bne, hz]
    exact evalExpr_const c (by decide) (by decide)

end

theorem evalExpr_orE_byte {c : Ctx} {e e' : Expr} {v w : Byte} (he : evalExpr e c = .ok (byteValue v, c))
    (he' : evalExpr e' c = .ok (byteValue w, c)) : evalExpr (orE e e') c = .ok (byteValue (v ||| w), c) := by
  rw [orE_eq, evalExpr_binary_of_ne (op := .bor) nofun nofun he he', bor_byte, orRange_byte]

section
variable {c : Ctx} {x y : Word} {n : Int} (hx : evalExpr adcX c = .ok (wordValue x, c))
  (hy : evalExpr adcY c = .ok (wordValue y, c)) (ht : evalExpr adcT c = .ok (.num n, c))
include ht

theorem evalExpr_flags16E {f : Expr} {v : Byte} (hf : evalExpr f c = .ok (byteValue v, c)) :
    evalExpr (flags16E f) c = .ok (byteValue (flags16 v n), c) :=
  evalExpr_orE_byte (evalExpr_orE_byte (evalExpr_orE_byte hf (evalExpr_shrBit ht 0 16 (by decide) (by decide)))
    (evalExpr_shrBit ht 7 8 (by decide) (by decide))) (evalExpr_zeroE ht)

include hx hy

theorem evalExpr_half16E : evalExpr half16E c = .ok (byteValue (half16 x y n), c) :=
  evalExpr_shrBit (evalExpr_bxor (evalExpr_bxor hx ht) hy) 4 8 (by decide) (by decide)

/-- The flags of R189. -/
theorem evalExpr_adcFlagsE :
    evalExpr (orE (flags16E half16E)
        (overflow16E (andE (xorE (xorE adcY adcX) (numLit 0x8000)) (xorE adcY adcT)))) c =
      .ok (byteValue (flags16 (half16 x y n) n ||| flagIf (Int.testBit (addOverflow16 x y n) 15) 0x04), c) :=
  evalExpr_orE_byte (evalExpr_flags16E ht (evalExpr_half16E hx hy ht))
    (evalExpr_overflow16E (evalExpr_band (evalExpr_bxor (evalExpr_bxor hy hx) (evalExpr_const c (by decide) (by decide)))
      (evalExpr_bxor hy ht)))

/-- The flags of R190. -/
theorem evalExpr_sbcFlagsE :
    evalExpr (orE (flags16E (orE half16E (numLit 0x02)))
        (overflow16E (andE (xorE adcY adcX) (xorE adcX adcT)))) c =
      .ok (byteValue (flags16 (half16 x y n ||| 0x02) n ||| flagIf (Int.testBit (subOverflow16 x y n) 15) 0x04), c) :=
  evalExpr_orE_byte
    (evalExpr_flags16E ht (evalExpr_orE_byte (evalExpr_half16E hx hy ht) (evalExpr_const c (by decide) (by decide))))
    (evalExpr_overflow16E (evalExpr_band (evalExpr_bxor hy hx) (evalExpr_bxor hx ht)))

end

/-! ### The rows -/

section
variable (s : State) (ρ : TempEnv) (j : Bool) (node : Expr) (v : Byte)

@[simp] theorem assign_h : Ctx.assign ⟨s, ρ, j⟩ node (.register .h) (byteValue v) = .ok ⟨{ s with h := v }, ρ, j⟩ :=
  assign_reg8 s ρ j node v .h

@[simp] theorem assign_l : Ctx.assign ⟨s, ρ, j⟩ node (.register .l) (byteValue v) = .ok ⟨{ s with l := v }, ρ, j⟩ :=
  assign_reg8 s ρ j node v .l

end

/-- `H` and `L` from the sum or difference in the temporary. -/
theorem runThen_splitTempHl {s : State} {ρ : TempEnv} {n : Int} (h0 : -131072 ≤ n) (h1 : n ≤ 131072) (len : Nat) :
    runThen splitTempHl ⟨s, ρ.set .temp (.num n), false⟩ (finish len) = fallThrough (s.setHl (BitVec.ofInt 16 n)) len := by
  have hr : (Value.num n).inIrRange = true := (inIrRange_iff n).2 (by omega)
  have hhi : BitVec.ofInt 8 (n / 256) = hi (BitVec.ofInt 16 n) := by
    simp only [← BitVec.toNat_inj, hi, BitVec.toNat_ofInt, BitVec.toNat_ofNat]
    omega
  have hlo : BitVec.ofInt 8 n = lo (BitVec.ofInt 16 n) := by
    simp only [← BitVec.toNat_inj, lo, BitVec.toNat_ofInt, BitVec.toNat_ofNat]
    omega
  have hshift (node : Expr) (c : Ctx) : orRange node (binaryValue .shr (.num n) (.num 8)) c = .ok (.num (n / 256), c) := by
    have h : shiftRight n 8 = n / 256 := shiftRight_natCast n 8
    rw [binaryValue, h, orRange_small node c (by omega) (by omega)]
  simp [splitTempHl, hr, hshift, hhi, hlo]
  rfl

section
variable (s : State)

theorem denotes_carry16 {i : Instr} {e sum flags : Expr} {y : Word} {n : Int} {f : Byte} (hw : i.wellFormed = true)
    (hsynth : synth s.params i = constant ([.varDecl .val e, .varDecl .temp sum, setReg .f flags] ++ splitTempHl))
    (he : ∀ k, evalThen e ⟨s, TempEnv.empty, false⟩ k = k (wordValue y) ⟨s, TempEnv.empty, false⟩)
    (hsum : evalExpr sum ⟨s, TempEnv.empty.set .val (wordValue y), false⟩ =
      .ok (.num n, ⟨s, TempEnv.empty.set .val (wordValue y), false⟩))
    (h0 : -131072 ≤ n) (h1 : n ≤ 131072)
    (hflags : ∀ c : Ctx, evalExpr adcX c = .ok (wordValue s.hl, c) → evalExpr adcY c = .ok (wordValue y, c) →
      evalExpr adcT c = .ok (.num n, c) → evalExpr flags c = .ok (byteValue f, c))
    (hexec : exec i s = fallThrough { s.setHl (BitVec.ofInt 16 n) with f := f } i.length) : Denotes i s := by
  refine denotes_of_run hw hsynth ?_
  have hr : (Value.num n).inIrRange = true := (inIrRange_iff n).2 (by omega)
  have hf := hflags ⟨s, (TempEnv.empty.set .val (wordValue y)).set .temp (.num n), false⟩
    (by rfl)
    (evalExpr_tmpE (by rfl) (wordValue_inIrRange y)) (evalExpr_tmpE (by rfl) hr)
  have hsplit := runThen_splitTempHl (s := { s with f := f }) (ρ := TempEnv.empty.set .val (wordValue y)) h0 h1 i.length
  simp only [List.cons_append, List.nil_append, runThen_varDecl, he, evalThen_of_ok hsum, setReg_eq, runThen_exprStmt, evalThen_set,
    evalThen_of_ok hf, assign_f, andThen_ok, hsplit, hexec]
  rfl

theorem evalThen_ssE (p : RegPair) : ∃ e, ssE (pairDesc p) = some e ∧
    ∀ k, evalThen e ⟨s, TempEnv.empty, false⟩ k = k (wordValue (s.pair p)) ⟨s, TempEnv.empty, false⟩ := by
  cases p with
  | sp => exact ⟨_, rfl, fun k => evalThen_register ..⟩
  | bc => exact ⟨_, rfl, evalThen_getPair s .bc _ _⟩
  | de => exact ⟨_, rfl, evalThen_getPair s .de _ _⟩
  | hl => exact ⟨_, rfl, evalThen_getPair s .hl _ _⟩

/-- `F & 1` is the carry-in. -/
theorem evalExpr_carryE (ρ : TempEnv) (j : Bool) :
    evalExpr (andE (regE .f) (numLit 0x01)) ⟨s, ρ, j⟩ = .ok (.num s.carry.toNat, ⟨s, ρ, j⟩) := by
  have hcarry : intAnd s.f.toNat 1 = s.carry.toNat := by
    have h : intAnd s.f.toNat 1 = if s.f.toNat.testBit 0 then 1 else 0 := intAnd_two_pow s.f.toNat 0
    rw [h, State.carry, bitOf, BitVec.getLsbD]
    cases s.f.toNat.testBit 0 <;> rfl
  rw [← hcarry]
  exact evalExpr_band (evalExpr_register .f _) (evalExpr_const _ (by decide) (by decide))

theorem evalExpr_adcSumE (y : Word) (ρ : TempEnv) (j : Bool) :
    evalExpr adcSumE ⟨s, ρ.set .val (wordValue y), j⟩ =
      .ok (.num (s.hl.toNat + y.toNat + s.carry.toNat), ⟨s, ρ.set .val (wordValue y), j⟩) := by
  have hcin := s.carry.toNat_le
  have hx := s.hl.isLt
  have hy := y.isLt
  have hxy : evalExpr (addE adcX adcY) ⟨s, ρ.set .val (wordValue y), j⟩ =
      .ok (.num (s.hl.toNat + y.toNat), ⟨s, ρ.set .val (wordValue y), j⟩) :=
    (evalExpr_add (by rfl) (evalExpr_tmpE (by rfl) (wordValue_inIrRange y))).trans
      (rangedResult_of_inIrRange ((inIrRange_iff _).2 (by omega)) _ _)
  exact (evalExpr_add hxy (evalExpr_carryE s _ _)).trans (rangedResult_of_inIrRange ((inIrRange_iff _).2 (by omega)) _ _)

theorem denotes_adcHlSs (p : RegPair) : Denotes (.adcHlSs p) s := by
  obtain ⟨e, he, hv⟩ := evalThen_ssE s p
  have hcin := s.carry.toNat_le
  have hx := s.hl.isLt
  have hy := (s.pair p).isLt
  refine denotes_carry16 s (sum := adcSumE) rfl ?_ hv (evalExpr_adcSumE s (s.pair p) _ _) (by omega) (by omega)
    (fun c hx hy ht => evalExpr_adcFlagsE hx hy ht) ?_
  · have h : synth s.params (.adcHlSs p) = adc16T (pairDesc p) := rfl
    rw [h, adc16T]
    simp only [he]
    rfl
  · have h : exec (.adcHlSs p) s = fallThrough { s.setHl (adc16 s.hl (s.pair p) s.carry).1 with
      f := (adc16 s.hl (s.pair p) s.carry).2 } 2 := rfl
    rw [h, adc16_eq _ _ _ rfl]
    rfl

theorem evalExpr_sbcSumE (y : Word) (ρ : TempEnv) (j : Bool) :
    evalExpr sbcSumE ⟨s, ρ.set .val (wordValue y), j⟩ =
      .ok (.num (s.hl.toNat - y.toNat - s.carry.toNat), ⟨s, ρ.set .val (wordValue y), j⟩) := by
  have hcin := s.carry.toNat_le
  have hx := s.hl.isLt
  have hy := y.isLt
  have hxy : evalExpr (subE adcX adcY) ⟨s, ρ.set .val (wordValue y), j⟩ =
      .ok (.num (s.hl.toNat - y.toNat), ⟨s, ρ.set .val (wordValue y), j⟩) :=
    (evalExpr_sub (by rfl) (evalExpr_tmpE (by rfl) (wordValue_inIrRange y))).trans
      (rangedResult_of_inIrRange ((inIrRange_iff _).2 (by omega)) _ _)
  exact (evalExpr_sub hxy (evalExpr_carryE s _ _)).trans (rangedResult_of_inIrRange ((inIrRange_iff _).2 (by omega)) _ _)

theorem denotes_sbcHlSs (p : RegPair) : Denotes (.sbcHlSs p) s := by
  obtain ⟨e, he, hv⟩ := evalThen_ssE s p
  have hcin := s.carry.toNat_le
  have hx := s.hl.isLt
  have hy := (s.pair p).isLt
  refine denotes_carry16 s (sum := sbcSumE) rfl ?_ hv (evalExpr_sbcSumE s (s.pair p) _ _) (by omega) (by omega)
    (fun c hx hy ht => evalExpr_sbcFlagsE hx hy ht) ?_
  · have h : synth s.params (.sbcHlSs p) = sbc16T (pairDesc p) := rfl
    rw [h, sbc16T]
    simp only [he]
    rfl
  · have h : exec (.sbcHlSs p) s = fallThrough { s.setHl (sbc16 s.hl (s.pair p) s.carry).1 with
      f := (sbc16 s.hl (s.pair p) s.carry).2 } 2 := rfl
    rw [h, sbc16_eq _ _ _ rfl]
    rfl

end

end Sys2Proof.Machine

/-! Read, modify, write at a place of memory, and the forms on a register: counts (43_arith8.md R276, R277), rotates and shifts
(46_rotate.md R340, R341), `RES` and `SET` (47_bit.md R367, R368). -/

namespace Sys2Proof.Machine

/-! ### A place of memory in a fragment -/

def Mem8.desc : Mem8 → Desc
  | .hl => .memPair .hl
  | .idx x _ => .indexed x

/-- The statements before the access: the declaration of `location` (47_bit.md R365). -/
def Mem8.declare (h : Holes) : Mem8 → List Stmt
  | .hl => []
  | .idx x _ => [locationS x h]

/-- The address after `Mem8.declare`. -/
def Mem8.addressE : Mem8 → Expr
  | .hl => hlE
  | .idx _ _ => tmpE .location

/-- The decoded values hold the displacement of the place (40_ir_fold.md R171). -/
def Mem8.InHoles (h : Holes) : Mem8 → Prop
  | .hl => True
  | .idx _ d => h.displacement = s8 d

/-- A row on a place of memory, from what its statements do where `a` is the address. -/
theorem denotes_onMem {i : Instr} {m : Mem8} {body : Expr → List Stmt} {s : State} (hw : i.wellFormed = true)
    (hsynth : synth s.params i = fragment fun h => m.declare h ++ body m.addressE)
    (hm : m.InHoles (holesOf (s.nextAddress i.length) i))
    (hrun : ∀ a ρ, (∀ k, evalThen a ⟨s, ρ, false⟩ k = k (wordValue (m.address s)) ⟨s, ρ, false⟩) →
      runThen (body a) ⟨s, ρ, false⟩ (finish i.length) = exec i s) : Denotes i s := by
  refine denotes_of_run hw hsynth ?_
  cases m with
  | hl => exact hrun _ _ fun k => evalThen_hlE ..
  | idx x d =>
    have hd : (holesOf (s.nextAddress i.length) i).displacement = s8 d := hm
    refine (runThen_locationS x hd ..).trans (hrun _ _ fun k => ?_)
    simp [Mem8.addressE, Mem8.address, wordValue_inIrRange]

section
variable (s : State)

/-! ### `INC` and `DEC` -/

theorem denotes_incMem (m : Mem8) : Denotes (incMem m) s := by
  refine denotes_onMem (m := m) (body := fun a => [callS .incMem [a]]) (by cases m <;> rfl) (by cases m <;> rfl)
    (by cases m <;> trivial) fun a ρ ha => ?_
  have hlen : (incMem m).length = m.countLength := by cases m <;> rfl
  simp [exec_incMem, callPrim, ha, hlen]

theorem denotes_decMem (m : Mem8) : Denotes (decMem m) s := by
  refine denotes_onMem (m := m) (body := fun a => [callS .decMem [a]]) (by cases m <;> rfl) (by cases m <;> rfl)
    (by cases m <;> trivial) fun a ρ ha => ?_
  have hlen : (decMem m).length = m.countLength := by cases m <;> rfl
  simp [exec_decMem, callPrim, ha, hlen]

theorem denotes_incR (r : Reg8) : Denotes (.incR r) s := by
  refine denotes_of_run (ss := fun _ => [setReg (Reg8.ir r) (callE .inc8 [regE (Reg8.ir r)])]) rfl (by cases r <;> rfl) ?_
  simp [callPrim]
  rfl

theorem denotes_decR (r : Reg8) : Denotes (.decR r) s := by
  refine denotes_of_run (ss := fun _ => [setReg (Reg8.ir r) (callE .dec8 [regE (Reg8.ir r)])]) rfl (by cases r <;> rfl) ?_
  simp [callPrim]
  rfl

theorem denotes_incXh (x : IndexReg) (u : IndexHalf) : Denotes (.incXh x u) s := by
  refine denotes_of_run (ss := fun _ => [setReg (halfIr x u) (callE .inc8 [regE (halfIr x u)])]) rfl
    (by cases x <;> cases u <;> rfl) ?_
  simp [callPrim]
  rfl

theorem denotes_decXh (x : IndexReg) (u : IndexHalf) : Denotes (.decXh x u) s := by
  refine denotes_of_run (ss := fun _ => [setReg (halfIr x u) (callE .dec8 [regE (halfIr x u)])]) rfl
    (by cases x <;> cases u <;> rfl) ?_
  simp [callPrim]
  rfl

/-! ### Rotates and shifts -/

/-- The rotate that an accumulator rotate carries out (41_alu_flags.md R194). -/
def AccRot.op : AccRot → RotOp
  | .rlca => .rlc
  | .rrca => .rrc
  | .rla => .rl
  | .rra => .rr

def AccRot.instr : AccRot → Instr
  | .rlca => .rlca
  | .rrca => .rrca
  | .rla => .rla
  | .rra => .rra

theorem denotes_accRot (op : AccRot) : Denotes (AccRot.instr op) s := by
  have hexec : exec (AccRot.instr op) s = fallThrough (s.rotateA (AccRot.op op)) 1 := by cases op <;> rfl
  have hlen : (AccRot.instr op).length = 1 := by cases op <;> rfl
  refine denotes_of_run (ss := fun _ => [callS op.prim []]) (by cases op <;> rfl) (by cases op <;> rfl) ?_
  rw [hexec, hlen]
  cases op <;> simp [AccRot.prim, callPrim, AccRot.op]

theorem denotes_rotateReg (op : RotOp) (r : Reg8) : Denotes (rotateReg op r) s := by
  have hexec : exec (rotateReg op r) s = fallThrough ((s.rotate op (s.reg8 r)).2.setReg8 r (s.rotate op (s.reg8 r)).1) 2 := by
    cases op <;> rfl
  have hlen : (rotateReg op r).length = 2 := by cases op <;> rfl
  have hcall : callOf (rotateReg op r) = .cb op (.reg (Reg8.ir r)) := by cases op <;> rfl
  refine denotes_of_run (ss := fun _ => [setReg (Reg8.ir r) (callE (.rotate op) [regE (Reg8.ir r)])]) (by cases op <;> rfl) ?_ ?_
  · rw [synth, hcall]
    cases r <;> rfl
  · rw [hexec, hlen]
    simp [callPrim]

theorem denotes_rotateMem (op : RotOp) (m : Mem8) : Denotes (rotateMem op m) s := by
  refine denotes_onMem (m := m) (body := fun a => [callS .writeMem [a, callE (.rotate op) [callE .readMem [a]]]])
    (by cases m <;> cases op <;> rfl) (by cases m <;> cases op <;> rfl) (by cases m <;> cases op <;> trivial) fun a ρ ha => ?_
  have hlen : (rotateMem op m).length = m.cbLength := by cases m <;> cases op <;> rfl
  rw [exec_rotateMem, hlen]
  simp [callPrim, ha, modifyByte]

theorem denotes_rotateCopy (op : RotOp) (x : IndexReg) (d : Byte) (r : Reg8) : Denotes (rotateCopy op x d r) s := by
  have hcall : callOf (rotateCopy op x d r) = .indexCb op (.indexed x) (some (.reg (Reg8.ir r))) := by cases op <;> rfl
  have hlen : (rotateCopy op x d r).length = 4 := by cases op <;> rfl
  have hd : (holesOf (s.nextAddress 4) (rotateCopy op x d r)).displacement = s8 d := by cases op <;> rfl
  refine denotes_of_run (ss := fun h => [locationS x h, .varDecl .temp (callE (.rotate op) [callE .readMem [tmpE .location]]),
        callS .writeMem [tmpE .location, tmpE .temp], setReg (Reg8.ir r) (tmpE .temp)]) (by cases op <;> rfl) ?_ ?_
  · rw [synth, hcall]
    cases r <;> rfl
  · rw [hlen, exec_rotateCopy, runThen_locationS x hd]
    simp [callPrim, modifyByte, wordValue_inIrRange, byteValue_inIrRange]

end

end Sys2Proof.Machine

/-! `RES`, `SET` and `BIT` (47_bit.md R366 to R368, 41_alu_flags.md R199). -/

namespace Sys2Proof.Machine

@[simp] theorem num_bxor_byte (y : Byte) : binaryValue .bxor (.num 255) (byteValue y) = some (byteValue (0xFF ^^^ y)) :=
  bxor_byte 0xFF y

section
variable (s : State)

/-! ### `RES` and `SET` -/

theorem denotes_resR (b : Fin 8) (r : Reg8) : Denotes (.resR b r) s := by
  refine denotes_of_run (ss := fun _ => [setReg (Reg8.ir r) (andE (regE (Reg8.ir r)) (xorE (numLit 0xFF) (.bit b)))]) rfl
    (by cases r <;> rfl) ?_
  simp
  rfl

theorem denotes_setR (b : Fin 8) (r : Reg8) : Denotes (.setR b r) s := by
  refine denotes_of_run (ss := fun _ => [setReg (Reg8.ir r) (orE (regE (Reg8.ir r)) (.bit b))]) rfl (by cases r <;> rfl) ?_
  simp
  rfl

theorem denotes_resMem (b : Fin 8) (m : Mem8) : Denotes (resMemInstr b m) s := by
  refine denotes_onMem (m := m)
    (body := fun a => [callS .writeMem [a, andE (callE .readMem [a]) (xorE (numLit 0xFF) (.bit b))]])
    (by cases m <;> rfl) (by cases m <;> rfl) (by cases m <;> trivial) fun a ρ ha => ?_
  have hlen : (resMemInstr b m).length = m.cbLength := by cases m <;> rfl
  rw [exec_resMemInstr, hlen]
  simp [callPrim, ha, modifyByte, resBit]

theorem denotes_setMem (b : Fin 8) (m : Mem8) : Denotes (setMemInstr b m) s := by
  refine denotes_onMem (m := m) (body := fun a => [callS .writeMem [a, orE (callE .readMem [a]) (.bit b)]])
    (by cases m <;> rfl) (by cases m <;> rfl) (by cases m <;> trivial) fun a ρ ha => ?_
  have hlen : (setMemInstr b m).length = m.cbLength := by cases m <;> rfl
  rw [exec_setMemInstr, hlen]
  simp [callPrim, ha, modifyByte, setBit]

end

/-! ### `BIT` -/

theorem and_bitMask (v : Byte) (b : Fin 8) : v &&& bitMask b = flagIf (bitOf v b.val) (bitMask b) := by
  have h : bitMask b = BitVec.twoPow 8 b := by
    revert b
    decide
  rw [h, BitVec.and_twoPow]
  rfl

theorem and_bitMask_beq_zero (v : Byte) (b : Fin 8) : (v &&& bitMask b == 0#8) = !bitOf v b.val := by
  rw [and_bitMask]
  cases bitOf v b.val
  · rfl
  · revert b
    decide

theorem and_bitMask_sign (v : Byte) (b : Fin 8) : v &&& bitMask b &&& 128#8 = flagIf (b.val == 7 && bitOf v 7) 128#8 := by
  have h : ∀ (b : Fin 8) (p : Bool), flagIf p (bitMask b) &&& 128#8 = flagIf (b.val == 7 && p) 128#8 := by
    decide
  rw [and_bitMask, h]
  by_cases hb : b.val = 7
  · rw [hb]
  · rw [beq_eq_false_iff_ne.2 hb]
    rfl

/-- `Z`, `H`, `N` and `C` of `BIT`, as the fragment computes them. -/
theorem bitFixed_eq (b : Fin 8) (v fin : Byte) :
    fin &&& 1#8 ||| 16#8 ||| flagIf (v &&& bitMask b == 0#8) 64#8 = bitFixed b v fin := by
  rw [and_bitMask_beq_zero]
  rfl

/-- The flags of `BIT` under `Z80` before bits 5 and 3, as the fragment computes them. -/
theorem bitFixed_or_bitSignParity (b : Fin 8) (v fin : Byte) :
    fin &&& 1#8 ||| 16#8 ||| flagIf (v &&& bitMask b == 0#8) 68#8 ||| v &&& bitMask b &&& 128#8 =
      bitFixed b v fin ||| bitSignParity b v := by
  have hflags : ∀ p : Bool, flagIf p 68#8 = flagIf p 64#8 ||| flagIf p 4#8 := by decide
  rw [and_bitMask_beq_zero, and_bitMask_sign, hflags]
  simp only [bitFixed, bitSignParity, BitVec.ofNat_eq_ofNat]
  ac_rfl

@[simp] theorem evalThen_drawE {m : Int} (h0 : 0 ≤ m) (h1 : m ≤ 255) (s : State) (ρ : TempEnv) (j : Bool)
    (k : Value → Ctx → Outcome State) :
    evalThen (drawE m) ⟨s, ρ, j⟩ k = k (byteValue (s.drawn &&& BitVec.ofInt 8 m)) ⟨s.afterDraw, ρ, j⟩ := by
  rw [drawE, andE_eq, evalThen_binary _ _ (fold_call ..), evalThen_draw, evalThen_const _ _ (by omega) (by omega), band_num _ h0 h1,
    orRange_byte, andThen_ok]

section
variable (s : State) (b : Fin 8) {v : Expr} {x : Byte} {ρ : TempEnv} {j : Bool}
  (hf : ∀ op e, fold (.binary op v e) = .binary op v e)
  (hv : ∀ k, evalThen v ⟨s, ρ, j⟩ k = k (byteValue x) ⟨s, ρ, j⟩)
include hf hv

theorem runThen_bitReg (rest : List Stmt) (k : Bool → Ctx → Outcome State) :
    runThen (setReg .f (bitFlagsE s.params.undoc b v true) :: rest) ⟨s, ρ, j⟩ k = runThen rest ⟨s.bitReg b x, ρ, j⟩ k := by
  cases h : s.params.undoc with
  | draw => simp [bitFlagsE, hf, hv, bitFixed_eq, State.bitReg, h, State.setFlagsDrawn, State.afterDraw]
  | z80 => simp [bitFlagsE, hf, hv, bitFixed_or_bitSignParity, State.bitReg, h]

theorem runThen_bitMem (rest : List Stmt) (k : Bool → Ctx → Outcome State) :
    runThen (setReg .f (bitFlagsE s.params.undoc b v false) :: rest) ⟨s, ρ, j⟩ k = runThen rest ⟨s.bitMem b x, ρ, j⟩ k := by
  cases h : s.params.undoc with
  | draw => simp [bitFlagsE, hf, hv, bitFixed_eq, State.bitMem, h, State.setFlagsDrawn, State.afterDraw]
  | z80 => simp [bitFlagsE, hf, hv, bitFixed_or_bitSignParity, State.bitMem, h, State.setFlagsDrawn, State.afterDraw]

end

section
variable (s : State) (b : Fin 8)

theorem denotes_bitR (r : Reg8) : Denotes (.bitR b r) s := by
  refine denotes_of_run (ss := fun _ => [setReg .f (bitFlagsE s.params.undoc b (regE (Reg8.ir r)) true)]) rfl (by cases r <;> rfl) ?_
  rw [runThen_bitReg s b (x := s.reg8 r) (fun op e => fold_register op e _) fun k => by simp, runThen_nil]
  rfl

theorem denotes_bitMem (m : Mem8) : Denotes (bitMemInstr b m) s := by
  refine denotes_onMem (m := m)
    (body := fun a => [.varDecl .val (callE .readMem [a]), setReg .f (bitFlagsE s.params.undoc b (tmpE .val) false)])
    (by cases m <;> rfl) (by cases m <;> rfl) (by cases m <;> trivial) fun a ρ ha => ?_
  have hexec : exec (bitMemInstr b m) s = loadByte s (m.address s) fun v => fallThrough (s.bitMem b v) m.cbLength := by
    cases m <;> rfl
  have hlen : (bitMemInstr b m).length = m.cbLength := by cases m <;> rfl
  have hflags (x : Byte) := runThen_bitMem s b (v := tmpE .val) (x := x) (ρ := ρ.set .val (byteValue x)) (j := false)
    (fun op e => fold_tmp op e _) (fun k => by simp [byteValue_inIrRange]) []
  rw [hexec, hlen]
  simp only [runThen_varDecl, evalThen_call, argsThen_cons, argsThen_nil, ha, callPrim, needU16_word, andThen_map, andThen_irRead,
    hflags, runThen_nil, finish_fallThrough]

end

end Sys2Proof.Machine

/-! Control transfer: jumps, calls, returns and `HALT` (48_control_stack.md R385 to R399, 49_misc.md R434). -/

namespace Sys2Proof.Machine

/-! ### Conditions and re-based addresses -/

@[simp] theorem evalThen_condE (cc : Cond) (s : State) (ρ : TempEnv) (j : Bool) (k : Value → Ctx → Outcome State) :
    evalThen (condE cc) ⟨s, ρ, j⟩ k = k (.bool (condHolds s.f cc)) ⟨s, ρ, j⟩ := by
  cases cc <;> simp [condE, condHolds]

@[simp] theorem evalThen_relCondE (cc : RelCond) (s : State) (ρ : TempEnv) (j : Bool) (k : Value → Ctx → Outcome State) :
    evalThen (relCondE cc) ⟨s, ρ, j⟩ k = k (.bool (relCondHolds s.f cc)) ⟨s, ρ, j⟩ := by
  cases cc with
  | nz => exact evalThen_condE .nz ..
  | z => exact evalThen_condE .z ..
  | nc => exact evalThen_condE .nc ..
  | c => exact evalThen_condE .c ..

/-- The page, or the fault that ends the instruction (60_exceptions.md R457). -/
theorem evalThen_pageE (s : State) (ρ : TempEnv) (j : Bool) (k : Value → Ctx → Outcome State) :
    evalThen pageE ⟨s, ρ, j⟩ k = if s.page < 4 then k (.num s.page) ⟨s, ρ, j⟩ else .fault (.pageOutOfRange s.page) := by
  by_cases h : s.page < 4
  · have hr : (Value.num s.page).inIrRange = true := (inIrRange_iff _).2 (by omega)
    simp [evalThen, pageE, evalExpr, Ctx.ident, Ctx.held, State.envScalar, h, hr]
  · simp [evalThen, pageE, evalExpr, Ctx.ident, Ctx.held, State.envScalar, h]

/-- `rebase(e)` in a fragment (20_memory.md R80). -/
theorem evalThen_rebaseE {e : Expr} {x : Word} {s : State} {ρ : TempEnv} {j : Bool}
    (he : ∀ k, evalThen e ⟨s, ρ, j⟩ k = k (wordValue x) ⟨s, ρ, j⟩) (k : Value → Ctx → Outcome State) :
    evalThen (rebaseE e) ⟨s, ρ, j⟩ k = withRebase s x fun t => k (wordValue t) ⟨s, ρ, j⟩ := by
  have hmod (node : Expr) (c : Ctx) :
      orRange node (binaryValue .mod (wordValue x) (.num 16384)) c = .ok (.num (x.toNat % 16384), c) :=
    orRange_small node c (by omega) (by omega)
  by_cases h : s.page < 4
  · have hmul (node : Expr) (c : Ctx) :
        orRange node (binaryValue .mul (.num s.page) (.num 16384)) c = .ok (.num (s.page * 16384), c) :=
      orRange_small node c (by omega) (by omega)
    have hadd (node : Expr) (c : Ctx) :
        orRange node (binaryValue .add (.num (x.toNat % 16384)) (.num (s.page * 16384))) c = .ok (wordValue (rebase s.page x), c) := by
      have hval : (x.toNat : Int) % 16384 + s.page * 16384 = (rebase s.page x).toNat := by
        rw [rebase_toNat _ _ h]
        push_cast
        rfl
      rw [binaryValue, hval]
      exact orRange_word ..
    simp [rebaseE, he, hmod, evalThen_pageE, withRebase, h, hmul, hadd]
  · simp [rebaseE, he, hmod, evalThen_pageE, withRebase, h]

/-! ### Leaving the fragment (48_control_stack.md R385) -/

section
variable {s : State} {ρ : TempEnv} {j : Bool}

/-- The write of `pc` and the `Return`. -/
theorem runThen_leave {e : Expr} {w : Word} (he : ∀ k, evalThen e ⟨s, ρ, j⟩ k = k (wordValue w) ⟨s, ρ, j⟩) (len : Nat) :
    runThen [setPc e, .ret none] ⟨s, ρ, j⟩ (finish len) = jump s w := by
  simp [he]
  rfl

theorem runThen_leaveRebased {e : Expr} {w : Word} (he : ∀ k, evalThen e ⟨s, ρ, j⟩ k = k (wordValue w) ⟨s, ρ, j⟩) (len : Nat) :
    runThen [setPc (rebaseE e), .ret none] ⟨s, ρ, j⟩ (finish len) = withRebase s w (jump s) := by
  simp [evalThen_rebaseE he]
  rfl

/-- A transfer under a condition, which is the last statement. -/
theorem runThen_ifS_last {t : Expr} {b : Bool} (ht : ∀ k, evalThen t ⟨s, ρ, j⟩ k = k (.bool b) ⟨s, ρ, j⟩) (body : List Stmt) (len : Nat) :
    runThen [ifS t body] ⟨s, ρ, j⟩ (finish len) =
      if b then runThen body ⟨s, ρ, j⟩ (finish len) else finish len false ⟨s, ρ, j⟩ := by
  have hfinish : (fun (returned : Bool) (d : Ctx) => if returned then finish len true d else finish len false d) = finish len := by
    funext returned d
    cases returned <;> rfl
  simp [ht, hfinish]
  rfl

end

section
variable (s : State) (ρ : TempEnv) (len : Nat) (h : Holes) {w : Word}

theorem runThen_jpBody (ht : h.target = w.toNat) : runThen (jpBody h) ⟨s, ρ, false⟩ (finish len) = jump s w :=
  runThen_leave (fun k => by rw [ht, evalThen_word]) len

theorem runThen_jrBody (ht : h.target = w.toNat) : runThen (jrBody h) ⟨s, ρ, false⟩ (finish len) = withRebase s w (jump s) :=
  runThen_leaveRebased (fun k => by rw [ht, evalThen_word]) len

theorem runThen_callBody {next : Word} (ht : h.target = w.toNat) (hn : h.nextAddress = next.toNat) :
    runThen (callBody h) ⟨s, ρ, false⟩ (finish len) = withRebase s next fun ret => push16 s ret fun s1 => jump s1 w := by
  have hnext (k : Value → Ctx → Outcome State) : evalThen (numLit h.nextAddress) ⟨s, ρ, false⟩ k = k (wordValue next) ⟨s, ρ, false⟩ := by
    rw [hn, evalThen_word]
  simp [callBody, branch, callPrim, evalThen_rebaseE hnext, ht]
  rfl

theorem runThen_retBody : runThen retBody ⟨s, ρ, false⟩ (finish len) = pop16 s fun v s1 => jump s1 v := by
  simp [retBody, branch, callPrim, runThen_bumpSp_two, wordValue_inIrRange, pop16]
  rfl

end

section
variable (s : State)

/-! ### `JP` and `JR` -/

theorem denotes_jpNn (nn : Word) : Denotes (.jpNn nn) s :=
  denotes_of_run (ss := jpBody) rfl rfl (runThen_jpBody s _ 3 _ rfl)

theorem denotes_jpCc (cc : Cond) (nn : Word) : Denotes (.jpCc cc nn) s := by
  refine denotes_of_run (ss := fun h => [ifS (condE cc) (jpBody h)]) rfl rfl ?_
  rw [runThen_ifS_last (evalThen_condE cc s _ _), runThen_jpBody s _ _ _ (w := nn) rfl]
  rfl

theorem denotes_jpPair {i : Instr} (p : IrPair) (hw : i.wellFormed = true) (hcall : callOf i = .jpPair (.pair p))
    (hp : p.isPointer = true) (hexec : exec i s = jump s (s.irPair p)) : Denotes i s := by
  refine denotes_of_run (ss := fun _ => branch [] (callE (.getPair p) [])) hw ?_ ?_
  · rw [synth, hcall, buildCall, jpPairT, if_pos hp]
    rfl
  · rw [hexec]
    exact runThen_leave (evalThen_getPair s p _ _) _

theorem denotes_jpHl : Denotes .jpHl s := denotes_jpPair s .hl rfl rfl rfl rfl

theorem denotes_jpXy (x : IndexReg) : Denotes (.jpXy x) s :=
  denotes_jpPair s (IndexReg.irPair x) rfl rfl (by cases x <;> rfl) (by rw [irPair_index]; rfl)

theorem denotes_jrE (e : Byte) : Denotes (.jrE e) s :=
  denotes_of_run (ss := jrBody) rfl rfl (runThen_jrBody s _ 2 _ rfl)

theorem denotes_jrCc (cc : RelCond) (e : Byte) : Denotes (.jrCc cc e) s := by
  refine denotes_of_run (ss := fun h => [ifS (relCondE cc) (jrBody h)]) rfl rfl ?_
  rw [runThen_ifS_last (evalThen_relCondE cc s _ _), runThen_jrBody s _ _ _ (w := s.relTarget e) rfl]
  rfl

theorem denotes_djnz (e : Byte) : Denotes (.djnz e) s := by
  refine denotes_of_run (ss := fun h => [setReg .b (andE (subE (regE .b) (numLit 1)) (numLit 0xFF)),
    ifS (.binary .ne (regE .b) (numLit 0)) (jrBody h)]) rfl rfl ?_
  have hassign (node : Expr) (v : Byte) : Ctx.assign ⟨s, TempEnv.empty, false⟩ node (.register .b) (byteValue v) =
      .ok ⟨{ s with b := v }, TempEnv.empty, false⟩ := assign_reg8 s _ _ node v .b
  have htest (k : Value → Ctx → Outcome State) :
      evalThen (.binary .ne (regE .b) (numLit 0)) ⟨{ s with b := s.b - 1 }, TempEnv.empty, false⟩ k =
        k (.bool (s.b - 1 != 0)) ⟨{ s with b := s.b - 1 }, TempEnv.empty, false⟩ := by
    simp [State.irReg]
  have hset (k : Value → Ctx → Outcome State) :
      evalThen (andE (subE (regE .b) (numLit 1)) (numLit 0xFF)) ⟨s, TempEnv.empty, false⟩ k =
        k (byteValue (s.b - 1)) ⟨s, TempEnv.empty, false⟩ := by
    simp [State.irReg]
  rw [setReg_eq, runThen_exprStmt, evalThen_set, hset, hassign, andThen_ok, runThen_ifS_last htest,
    runThen_jrBody _ _ _ _ (w := s.relTarget e) rfl]
  have hexec : exec (.djnz e) s = if s.b - 1 ≠ 0 then withRebase s (s.relTarget e) fun t => jump { s with b := s.b - 1 } t
    else fallThrough { s with b := s.b - 1 } 2 := rfl
  rw [hexec]
  simp only [bne_iff_ne]
  rfl

/-! ### `CALL`, `RST` and `RET` -/

theorem denotes_callNn (nn : Word) : Denotes (.callNn nn) s :=
  denotes_of_run (ss := callBody) rfl rfl (runThen_callBody s _ 3 _ rfl rfl)

theorem denotes_callCc (cc : Cond) (nn : Word) : Denotes (.callCc cc nn) s := by
  refine denotes_of_run (ss := fun h => [ifS (condE cc) (callBody h)]) rfl rfl ?_
  rw [runThen_ifS_last (evalThen_condE cc s _ _), runThen_callBody s _ _ _ (w := nn) rfl rfl]
  rfl

theorem denotes_rst (t : Fin 8) : Denotes (.rst t) s := by
  have ht : 8 * t.val = (rstTarget t).toNat := by
    revert t
    decide
  exact denotes_of_run (ss := callBody) rfl rfl (runThen_callBody s _ 1 _ (congrArg Nat.cast ht) rfl)

theorem denotes_ret : Denotes .ret s :=
  denotes_of_run (ss := fun _ => retBody) rfl rfl (runThen_retBody s _ 1)

theorem denotes_retCc (cc : Cond) : Denotes (.retCc cc) s := by
  refine denotes_of_run (ss := fun _ => [ifS (condE cc) retBody]) rfl rfl ?_
  rw [runThen_ifS_last (evalThen_condE cc s _ _), runThen_retBody]
  rfl

/-! ### `HALT` -/

/-- The fragment of `HALT` writes the re-based address of the instruction (49_misc.md R434), whatever `HALT_SPEEDUP` is. -/
theorem execIr_halt : execIr .halt s = .ok (some (withRebase s s.pc (jump s))) := by
  have ht : synth s.params .halt = fragment fun h =>
      (if s.params.haltSpeedup then [.exprStmt (.assign .set (.identifier (.env .tstates)) (numLit 0))] else []) ++
        branch [] (rebaseE (andE (subE (numLit h.nextAddress) (numLit 1)) (numLit 0xFFFF))) := rfl
  have hpc (k : Value → Ctx → Outcome State) :
      evalThen (andE (subE (numLit (holesOf (s.nextAddress 1) .halt).nextAddress) (numLit 1)) (numLit 0xFFFF))
        ⟨s, TempEnv.empty, false⟩ k = k (wordValue s.pc) ⟨s, TempEnv.empty, false⟩ := by
    have hnext : s.nextAddress 1 - 1#16 = s.pc := BitVec.add_sub_cancel ..
    simp [holesOf, hnext]
  rw [execIr_of_synth rfl ht]
  have hleave := runThen_leaveRebased hpc 1
  have htstates (node : Expr) :
      Ctx.assign ⟨s, TempEnv.empty, false⟩ node (.identifier (.env .tstates)) (.num 0) = .ok ⟨s, TempEnv.empty, false⟩ := rfl
  congr 2
  cases s.params.haltSpeedup with
  | false => exact hleave
  | true =>
    simp only [if_true, List.cons_append, List.nil_append, runThen_exprStmt, evalThen_set]
    rw [evalThen_const _ _ (by decide) (by decide), htstates, andThen_ok]
    exact hleave

/-- `HALT` where it does not reach a final state (log entry 2). -/
theorem denotes_halt (h : ¬(s.status = .running ∧ s.page < 4 ∧ rebase s.page s.pc = s.pc)) : Denotes .halt s := by
  have hnext : s.nextAddress 1 - 1 = s.pc := BitVec.add_sub_cancel ..
  have hexec : exec .halt s = withRebase s (s.nextAddress 1 - 1) fun t =>
    if t = s.pc ∧ s.status = .running then .next { s with status := .final } else jump s t := rfl
  rw [Denotes, execIr_halt, hexec, hnext]
  unfold withRebase
  split
  · rename_i hpage
    have hfinal : ¬(rebase s.page s.pc = s.pc ∧ s.status = .running) := fun ⟨hpc, hrun⟩ => h ⟨hrun, hpage, hpc⟩
    simp only [hfinal, if_false]
  · rfl

theorem execIr_halt_of_final (hpage : s.page < 4) (hpc : rebase s.page s.pc = s.pc) : execIr .halt s = .ok (some (.next s)) := by
  rw [execIr_halt, withRebase, if_pos hpage, hpc]
  rfl

end

end Sys2Proof.Machine

/-! The rows without an operand (49_misc.md R424 to R432), and every row (40_ir_fold.md R153). -/

namespace Sys2Proof.Machine

section
variable (s : State)

theorem denotes_nop : Denotes .nop s :=
  denotes_of_run (ss := fun _ => []) rfl rfl (runThen_nil ..)

theorem denotes_daa : Denotes .daa s := by
  refine denotes_of_run (ss := fun _ => [callS .daa []]) rfl rfl ?_
  simp [callPrim]
  rfl

theorem denotes_cpl : Denotes .cpl s := by
  refine denotes_of_run (ss := fun _ => [callS .cplA []]) rfl rfl ?_
  simp [callPrim]
  rfl

theorem denotes_ccf : Denotes .ccf s := by
  refine denotes_of_run (ss := fun _ => [callS .ccf []]) rfl rfl ?_
  simp [callPrim]
  rfl

theorem denotes_scf : Denotes .scf s := by
  refine denotes_of_run (ss := fun _ => [setReg .f (orE (orE (andE (regE .f) (numLit 0xC4)) (numLit 0x01)) (drawE 0x28))]) rfl rfl ?_
  simp
  rfl

/-- `NEG` is `SUB` from an `A` of zero (49_misc.md R426). -/
theorem denotes_neg : Denotes .neg s := by
  refine denotes_of_run (ss := fun _ => [.varDecl .temp (regE .a), setReg .a (numLit 0), callS .subA [tmpE .temp]]) rfl rfl ?_
  have hassign (node : Expr) (ρ : TempEnv) : Ctx.assign ⟨s, ρ, false⟩ node (.register .a) (.num 0) = .ok ⟨{ s with a := 0 }, ρ, false⟩ :=
    assign_a s ρ false node 0
  simp [callPrim, hassign, byteValue_inIrRange]
  rfl

/-- Every row but the `HALT` that reaches a final state (log entry 2). -/
theorem denotes {i : Instr} (hw : i.wellFormed = true)
    (hhalt : ¬(i = .halt ∧ s.status = .running ∧ s.page < 4 ∧ rebase s.page s.pc = s.pc)) : Denotes i s :=
  match i with
  | .nop => denotes_nop s
  | .ldRR dst src => denotes_ldRR s dst src
  | .ldRN dst n => denotes_ldRN s dst n
  | .ldRHl dst => denotes_ldRHl s dst
  | .ldHlR r => denotes_ldHlR s r
  | .ldHlN n => denotes_ldHlN s n
  | .ldAPtr q => denotes_ldAPtr s q
  | .ldAAbs nn => denotes_ldAAbs s nn
  | .ldPtrA q => denotes_ldPtrA s q
  | .ldAbsA nn => denotes_ldAbsA s nn
  | .ldDdNn p nn => denotes_ldDdNn s p nn
  | .ldHlAbs nn => denotes_ldHlAbs s nn
  | .ldAbsHl nn => denotes_ldAbsHl s nn
  | .ldSpHl => denotes_ldSpHl s
  | .pushQq p => denotes_pushQq s p
  | .popQq p => denotes_popQq s p
  | .exDeHl => denotes_exDeHl s
  | .exAfAf => denotes_exAfAf s
  | .exx => denotes_exx s
  | .exSpHl => denotes_exSpHl s
  | .addR r => denotes_acc .add (.reg r) s
  | .addN n => denotes_acc .add (.imm n) s
  | .addHl => denotes_acc .add .mem s
  | .adcR r => denotes_acc .adc (.reg r) s
  | .adcN n => denotes_acc .adc (.imm n) s
  | .adcHl => denotes_acc .adc .mem s
  | .subR r => denotes_acc .sub (.reg r) s
  | .subN n => denotes_acc .sub (.imm n) s
  | .subHl => denotes_acc .sub .mem s
  | .sbcR r => denotes_acc .sbc (.reg r) s
  | .sbcN n => denotes_acc .sbc (.imm n) s
  | .sbcHl => denotes_acc .sbc .mem s
  | .andR r => denotes_logic .and (.reg r) s
  | .andN n => denotes_logic .and (.imm n) s
  | .andHl => denotes_logic .and .mem s
  | .xorR r => denotes_logic .xor (.reg r) s
  | .xorN n => denotes_logic .xor (.imm n) s
  | .xorHl => denotes_logic .xor .mem s
  | .orR r => denotes_logic .or (.reg r) s
  | .orN n => denotes_logic .or (.imm n) s
  | .orHl => denotes_logic .or .mem s
  | .cpR r => denotes_acc .cp (.reg r) s
  | .cpN n => denotes_acc .cp (.imm n) s
  | .cpHl => denotes_acc .cp .mem s
  | .incR r => denotes_incR s r
  | .incHl => denotes_incMem s .hl
  | .decR r => denotes_decR s r
  | .decHl => denotes_decMem s .hl
  | .addHlSs p => denotes_addHlSs s p
  | .incSs p => denotes_incSs s p
  | .decSs p => denotes_decSs s p
  | .rlca => denotes_accRot s .rlca
  | .rrca => denotes_accRot s .rrca
  | .rla => denotes_accRot s .rla
  | .rra => denotes_accRot s .rra
  | .daa => denotes_daa s
  | .cpl => denotes_cpl s
  | .scf => denotes_scf s
  | .ccf => denotes_ccf s
  | .halt => denotes_halt s (not_and.1 hhalt rfl)
  | .jpNn nn => denotes_jpNn s nn
  | .jpCc cc nn => denotes_jpCc s cc nn
  | .jpHl => denotes_jpHl s
  | .jrE e => denotes_jrE s e
  | .jrCc cc e => denotes_jrCc s cc e
  | .djnz e => denotes_djnz s e
  | .callNn nn => denotes_callNn s nn
  | .callCc cc nn => denotes_callCc s cc nn
  | .ret => denotes_ret s
  | .retCc cc => denotes_retCc s cc
  | .rst t => denotes_rst s t
  | .rlcR r => denotes_rotateReg s .rlc r
  | .rlcHl => denotes_rotateMem s .rlc .hl
  | .rrcR r => denotes_rotateReg s .rrc r
  | .rrcHl => denotes_rotateMem s .rrc .hl
  | .rlR r => denotes_rotateReg s .rl r
  | .rlHl => denotes_rotateMem s .rl .hl
  | .rrR r => denotes_rotateReg s .rr r
  | .rrHl => denotes_rotateMem s .rr .hl
  | .slaR r => denotes_rotateReg s .sla r
  | .slaHl => denotes_rotateMem s .sla .hl
  | .sraR r => denotes_rotateReg s .sra r
  | .sraHl => denotes_rotateMem s .sra .hl
  | .sllR r => denotes_rotateReg s .sll r
  | .sllHl => denotes_rotateMem s .sll .hl
  | .srlR r => denotes_rotateReg s .srl r
  | .srlHl => denotes_rotateMem s .srl .hl
  | .bitR b r => denotes_bitR s b r
  | .bitHl b => denotes_bitMem s b .hl
  | .resR b r => denotes_resR s b r
  | .resHl b => denotes_resMem s b .hl
  | .setR b r => denotes_setR s b r
  | .setHl b => denotes_setMem s b .hl
  | .ldDdAbs p nn => denotes_ldDdAbs s p nn
  | .ldAbsDd p nn => denotes_ldAbsDd s p nn
  | .adcHlSs p => denotes_adcHlSs s p
  | .sbcHlSs p => denotes_sbcHlSs s p
  | .neg => denotes_neg s
  | .ldIA => denotes_ldIA s
  | .ldRefreshA => denotes_ldRefreshA s
  | .ldAI => denotes_ldAI s
  | .ldARefresh => denotes_ldARefresh s
  | .ldXyNn x nn => denotes_ldXyNn s x nn
  | .ldXyAbs x nn => denotes_ldXyAbs s x nn
  | .ldAbsXy x nn => denotes_ldAbsXy s x nn
  | .ldSpXy x => denotes_ldSpXy s x
  | .pushXy x => denotes_pushXy s x
  | .popXy x => denotes_popXy s x
  | .exSpXy x => denotes_exSpXy s x
  | .incXy x => denotes_incXy s x
  | .decXy x => denotes_decXy s x
  | .addXyPp x p => denotes_addXyPp s x p
  | .jpXy x => denotes_jpXy s x
  | .ldRXd r x d => denotes_ldRXd s r x d
  | .ldXdR x d r => denotes_ldXdR s x d r
  | .ldXdN x d n => denotes_ldXdN s x d n
  | .addXd x d => denotes_acc .add (.idx x d) s
  | .addXh x u => denotes_acc .add (.half x u) s
  | .adcXd x d => denotes_acc .adc (.idx x d) s
  | .adcXh x u => denotes_acc .adc (.half x u) s
  | .subXd x d => denotes_acc .sub (.idx x d) s
  | .subXh x u => denotes_acc .sub (.half x u) s
  | .sbcXd x d => denotes_acc .sbc (.idx x d) s
  | .sbcXh x u => denotes_acc .sbc (.half x u) s
  | .andXd x d => denotes_logic .and (.idx x d) s
  | .andXh x u => denotes_logic .and (.half x u) s
  | .xorXd x d => denotes_logic .xor (.idx x d) s
  | .xorXh x u => denotes_logic .xor (.half x u) s
  | .orXd x d => denotes_logic .or (.idx x d) s
  | .orXh x u => denotes_logic .or (.half x u) s
  | .cpXd x d => denotes_acc .cp (.idx x d) s
  | .cpXh x u => denotes_acc .cp (.half x u) s
  | .incXd x d => denotes_incMem s (.idx x d)
  | .decXd x d => denotes_decMem s (.idx x d)
  | .ldRho x t sr => denotes_ldRho s x t sr hw
  | .ldXhN x u n => denotes_ldXhN s x u n
  | .incXh x u => denotes_incXh s x u
  | .decXh x u => denotes_decXh s x u
  | .rlcXd x d => denotes_rotateMem s .rlc (.idx x d)
  | .rlcXdR x d r => denotes_rotateCopy s .rlc x d r
  | .rrcXd x d => denotes_rotateMem s .rrc (.idx x d)
  | .rrcXdR x d r => denotes_rotateCopy s .rrc x d r
  | .rlXd x d => denotes_rotateMem s .rl (.idx x d)
  | .rlXdR x d r => denotes_rotateCopy s .rl x d r
  | .rrXd x d => denotes_rotateMem s .rr (.idx x d)
  | .rrXdR x d r => denotes_rotateCopy s .rr x d r
  | .slaXd x d => denotes_rotateMem s .sla (.idx x d)
  | .slaXdR x d r => denotes_rotateCopy s .sla x d r
  | .sraXd x d => denotes_rotateMem s .sra (.idx x d)
  | .sraXdR x d r => denotes_rotateCopy s .sra x d r
  | .sllXd x d => denotes_rotateMem s .sll (.idx x d)
  | .sllXdR x d r => denotes_rotateCopy s .sll x d r
  | .srlXd x d => denotes_rotateMem s .srl (.idx x d)
  | .srlXdR x d r => denotes_rotateCopy s .srl x d r
  | .bitXd b x d => denotes_bitMem s b (.idx x d)
  | .resXd b x d => denotes_resMem s b (.idx x d)
  | .setXd b x d => denotes_setMem s b (.idx x d)

end

/-- Settles O59, row by row: the statements of each fragment, run with the rest of the instruction as a continuation, are what `exec` is
written as. -/
theorem templateDenotesEffect : Obligations.TemplateDenotesEffect := by
  unfold Obligations.TemplateDenotesEffect
  exact ⟨fun _ s hw hhalt => denotes s hw hhalt, fun s hpage hpc => execIr_halt_of_final s hpage hpc⟩

end Sys2Proof.Machine

/-! The flag byte (10_state.md R34, 41_alu_flags.md R180 to R182): six flags side by side, bits 5 and 3 left clear for `XY`; each flag
function of the model is such a byte. -/

namespace Sys2Proof.Machine

/-! ### A byte of six flags -/

@[simp] theorem flagIf_false (m : Byte) : flagIf false m = 0#8 := rfl

@[simp] theorem flagIf_true (m : Byte) : flagIf true m = m := rfl

@[simp] theorem getElem_flagIf (p : Bool) (m : Byte) {k : Nat} (hk : k < 8) : (flagIf p m)[k] = (p && m[k]) := by
  cases p
  · exact BitVec.getElem_zero hk
  · exact (Bool.true_and _).symm

/-- `F` with the six named flags, and 0 in bits 5 and 3 (R34). -/
def flagByte (s z h pv n c : Bool) : Byte :=
  flagIf s 0x80 ||| flagIf z 0x40 ||| flagIf h 0x10 ||| flagIf pv 0x04 ||| flagIf n 0x02 ||| flagIf c 0x01

/-- Bits put into places that are clear are read back there. -/
theorem or_and_and_of_and_eq_zero {base mask : Byte} (y : Byte) (h : base &&& mask = 0) :
    (base ||| (y &&& mask)) &&& mask = y &&& mask := by
  rw [BitVec.and_comm, BitVec.and_or_distrib_left, BitVec.and_comm, h, BitVec.and_comm, BitVec.and_assoc, BitVec.and_self]
  exact BitVec.zero_or

section
variable {s z h pv n c : Bool}

/-- Bits 5 and 3 put beside six flags leave them as they are. -/
theorem flagsAre_of_f_eq {t : State} {y : Byte} (hf : t.f = flagByte s z h pv n c ||| (y &&& 0x28)) :
    t.FlagsAre s z h pv n c := by
  refine ⟨?_, ?_, ?_, ?_, ?_, ?_⟩ <;> simp [State.flag, Flag.bit, hf, flagByte]

theorem flagByte_and_open : flagByte s z h pv n c &&& 0x28 = 0 := by
  revert s z h pv n c
  decide

theorem flagByte_or_and_open (y : Byte) : (flagByte s z h pv n c ||| (y &&& 0x28)) &&& 0x28 = y &&& 0x28 :=
  or_and_and_of_and_eq_zero y flagByte_and_open

end

/-! ### The tables (R181, R182) -/

theorem and_0x80 (v : Byte) : v &&& 0x80 = flagIf (v.getLsbD 7) 0x80 := and_bitMask v 7

theorem and_0x40 (v : Byte) : v &&& 0x40 = flagIf (v.getLsbD 6) 0x40 := and_bitMask v 6

theorem and_0x04 (v : Byte) : v &&& 0x04 = flagIf (v.getLsbD 2) 0x04 := and_bitMask v 2

theorem and_0x01 (v : Byte) : v &&& 0x01 = flagIf (v.getLsbD 0) 0x01 := and_bitMask v 0

theorem sz_eq (v : Byte) : sz v = flagIf (v.getLsbD 7) 0x80 ||| flagIf (decide (v = 0)) 0x40 := by
  rw [sz, and_0x80, Bool.beq_eq_decide_eq]

theorem parity_eq (v : Byte) : parity v = flagIf (decide (onesOf v % 2 = 0)) 0x04 := by
  rw [← Bool.beq_eq_decide_eq]
  rfl

theorem sz_eq_flagByte (v : Byte) : sz v = flagByte (v.getLsbD 7) (decide (v = 0)) false false false false := by
  rw [sz_eq]
  simp [flagByte]

theorem szp_eq_flagByte (v : Byte) :
    szp v = flagByte (v.getLsbD 7) (decide (v = 0)) false (decide (onesOf v % 2 = 0)) false false := by
  rw [szp, sz_eq, parity_eq]
  simp [flagByte]

/-- Settles O55: each table is a byte of flags, and the node `Index` reads it at its key. -/
theorem flagTables : Obligations.FlagTables := by
  unfold Obligations.FlagTables
  refine ⟨fun v => ⟨?_, rfl, ?_, ?_, ?_⟩, fun v c => ?_⟩
  · simp [sz, flagIf]
  · simp [parity_eq, flagIf]
  · rw [sz_eq_flagByte, flagByte_and_open]
  · rw [szp_eq_flagByte, flagByte_and_open]
  · simp [evalExpr]

end Sys2Proof.Machine

/-! The ends that the flag-writing instructions share: `F <- base | XY(src)` (41_alu_flags.md R180), beside a write of `A`, of a register
place, or of a byte of memory. -/

namespace Sys2Proof.Machine

/-- The draw counter after `XY` (R180). -/
def State.xyDraws (s : State) : Nat :=
  match s.params.undoc with
  | .z80 => s.draws
  | .draw => s.draws + 1

theorem State.setFlags_frame (s : State) (base src : Byte) :
    s.setFlags base src = { s with f := base ||| s.xyBits src, draws := s.xyDraws } := by
  cases hu : s.params.undoc <;> simp only [State.setFlags, State.xyDraws, hu]

theorem State.setAccFlags_frame (s : State) (r base src : Byte) :
    s.setAccFlags r base src = { s with a := r, f := base ||| s.xyBits src, draws := s.xyDraws } :=
  State.setFlags_frame { s with a := r } base src

section
variable {sf z h pv n c : Bool}

theorem flagsAre_of_xyBits {s t : State} {src : Byte} (hf : t.f = flagByte sf z h pv n c ||| s.xyBits src) :
    t.FlagsAre sf z h pv n c := by
  unfold State.xyBits at hf
  split at hf
  · exact flagsAre_of_f_eq hf
  · exact flagsAre_of_f_eq hf

theorem xyFrom_of_xyBits {s t : State} {src : Byte} (hf : t.f = flagByte sf z h pv n c ||| s.xyBits src)
    (hd : t.draws = s.xyDraws) : XyFrom s t src := by
  unfold State.xyBits at hf
  unfold State.xyDraws at hd
  unfold XyFrom
  cases hu : s.params.undoc <;> rw [hu] at hf hd
  · exact ⟨hf ▸ flagByte_or_and_open .., hd⟩
  · exact ⟨hf ▸ flagByte_or_and_open .., hd⟩

/-- `F <- flagByte | XYdraw`: bits 5 and 3 are drawn under both policies. -/
theorem fallThrough_setFlagsDrawn (s : State) (len : Nat) :
    ∃ t, fallThrough (s.setFlagsDrawn (flagByte sf z h pv n c) 0x28) len = .next t
      ∧ t.FlagsAre sf z h pv n c ∧ XyDrawn s t ∧ t.pc = s.pc + BitVec.ofNat 16 len
      ∧ t = { s with f := t.f, pc := t.pc, draws := t.draws } :=
  ⟨_, rfl, flagsAre_of_f_eq rfl, ⟨flagByte_or_and_open .., rfl⟩, rfl, rfl⟩

theorem fallThrough_setFlags (s : State) (src : Byte) (len : Nat) :
    ∃ t, fallThrough (s.setFlags (flagByte sf z h pv n c) src) len = .next t
      ∧ t.FlagsAre sf z h pv n c ∧ XyFrom s t src ∧ t.pc = s.pc + BitVec.ofNat 16 len
      ∧ t = { s with f := t.f, pc := t.pc, draws := t.draws } := by
  rw [State.setFlags_frame]
  exact ⟨_, rfl, flagsAre_of_xyBits rfl, xyFrom_of_xyBits rfl rfl, rfl, rfl⟩

theorem fallThrough_setAccFlags (s : State) (r : Byte) (len : Nat) :
    ∃ t, fallThrough (s.setAccFlags r (flagByte sf z h pv n c) r) len = .next t
      ∧ t.a = r ∧ t.FlagsAre sf z h pv n c ∧ XyFrom s t r ∧ t.pc = s.pc + BitVec.ofNat 16 len
      ∧ t = { s with a := t.a, f := t.f, pc := t.pc, draws := t.draws } := by
  rw [State.setAccFlags_frame]
  exact ⟨_, rfl, rfl, flagsAre_of_xyBits rfl, xyFrom_of_xyBits rfl rfl, rfl, rfl⟩

theorem Place8.value_set (p : Place8) (s : State) (v : Byte) : p.value (p.set s v) = v := by
  cases p with
  | reg r => exact (s.reg8_setReg8 r r v).trans (if_pos rfl)
  | half x u => exact (s.half_setHalf x x u u v).trans (if_pos ⟨rfl, rfl⟩)

/-- A write of a register place is beside one of `F`, `PC` and the draw counter. -/
theorem Place8.set_frame (p : Place8) (s : State) (v f : Byte) (pc : Word) (draws : Nat) :
    p.set { s with f := f, pc := pc, draws := draws } v = { p.set s v with f := f, pc := pc, draws := draws } := by
  cases p with
  | reg r => cases r <;> rfl
  | half x u => cases x <;> cases u <;> rfl

theorem fallThrough_setPlace (p : Place8) (s : State) (v : Byte) (len : Nat) :
    ∃ t, fallThrough (p.set (s.setFlags (flagByte sf z h pv n c) v) v) len = .next t
      ∧ p.value t = v ∧ t.FlagsAre sf z h pv n c ∧ XyFrom s t v ∧ t.pc = s.pc + BitVec.ofNat 16 len
      ∧ t = p.set { s with f := t.f, pc := t.pc, draws := t.draws } v := by
  rw [State.setFlags_frame, Place8.set_frame]
  refine ⟨_, rfl, ?_, flagsAre_of_xyBits rfl, xyFrom_of_xyBits rfl rfl, rfl, (p.set_frame ..).symm⟩
  rw [← Place8.set_frame, Place8.value_set]

/-- Read, modify, write of one byte with flags of the byte written (20_memory.md R76). -/
theorem modifyByte_setFlags {s : State} {a : Word} {v : Byte} {g : State → Byte → Byte × State}
    (hr : s.canRead a = true) (hw : s.canWrite a = true)
    (hg : g s (s.readByte a) = (v, s.setFlags (flagByte sf z h pv n c) v)) (len : Nat) :
    ∃ t, modifyByte s a g (fun _ s1 => fallThrough s1 len) = .next t
      ∧ StoredByte s t a v ∧ t.FlagsAre sf z h pv n c ∧ XyFrom s t v ∧ t.pc = s.pc + BitVec.ofNat 16 len
      ∧ t = { s with f := t.f, pc := t.pc, draws := t.draws, mem := t.mem, written := t.written } := by
  rw [State.setFlags_frame] at hg
  refine ⟨{ s.writeByte a v with f := _, pc := s.nextAddress len, draws := s.xyDraws }, (modifyByte_next ..).2 ⟨hr, ?_, ?_⟩,
    storedByte_writeByte s a v, flagsAre_of_xyBits rfl, xyFrom_of_xyBits rfl rfl, rfl, rfl⟩
  · rw [hg]
    exact hw
  · rw [hg]
    rfl

end

end Sys2Proof.Machine

/-! 8-bit arithmetic and logic (41_alu_flags.md R183 to R187, R192): the result of each operation, and its flags as a flag byte. -/

namespace Sys2Proof.Machine

/-! ### Sums and differences -/

theorem add8_toNat (a v : Byte) (cin : Bool) : (add8 a v cin).1.toNat = (a.toNat + v.toNat + cin.toNat) % 256 :=
  BitVec.toNat_ofNat ..

theorem add8_flags (a v : Byte) (cin : Bool) :
    (add8 a v cin).2 = flagByte ((add8 a v cin).1.getLsbD 7) (decide ((add8 a v cin).1 = 0))
      (decide (16 ≤ a.toNat % 16 + v.toNat % 16 + cin.toNat))
      (a.getLsbD 7 == v.getLsbD 7 && (add8 a v cin).1.getLsbD 7 != a.getLsbD 7) false
      (decide (256 ≤ a.toNat + v.toNat + cin.toNat)) := by
  simp only [add8, sz_eq, flagByte, flagIf_false, BitVec.or_zero, BitVec.msb_eq_getLsbD_last]

theorem sub8_toNat (a v : Byte) (cin : Bool) :
    ((sub8 a v cin).1.toNat : Int) = ((a.toNat : Int) - v.toNat - cin.toNat) % 256 := by
  have h : (sub8 a v cin).1.toNat = (((a.toNat : Int) - v.toNat - cin.toNat) % 256).toNat := BitVec.toNat_ofInt ..
  rw [h]
  omega

theorem sub8_flags (a v : Byte) (cin : Bool) :
    (sub8 a v cin).2 = flagByte ((sub8 a v cin).1.getLsbD 7) (decide ((sub8 a v cin).1 = 0))
      (decide (a.toNat % 16 < v.toNat % 16 + cin.toNat))
      (a.getLsbD 7 != v.getLsbD 7 && (sub8 a v cin).1.getLsbD 7 != a.getLsbD 7) true
      (decide (a.toNat < v.toNat + cin.toNat)) := by
  have hborrow (m n : Nat) : decide ((m : Int) - n - cin.toNat < 0) = decide (m < n + cin.toNat) := by
    rw [decide_eq_decide]
    omega
  simp only [sub8, sz_eq, flagByte, flagIf_true, BitVec.msb_eq_getLsbD_last, hborrow]

theorem sub8_false (a v : Byte) : (sub8 a v false).1 = a - v := by
  have h := sub8_toNat a v false
  rw [← BitVec.toNat_inj, BitVec.toNat_sub]
  simp only [Bool.toNat_false] at h
  omega

/-- Settles O8: both are `add8`, the carry in for `ADC` only. -/
theorem addAndAdc : Obligations.AddAndAdc := by
  unfold Obligations.AddAndAdc
  intro carry o s ho
  have halu : s.alu (if carry then .adc else .add) (o.value s) =
      s.setAccFlags (add8 s.a (o.value s) (carry && s.flag .c)).1 (add8 s.a (o.value s) (carry && s.flag .c)).2
        (add8 s.a (o.value s) (carry && s.flag .c)).1 := by
    cases carry <;> rfl
  rw [exec_aluInstr, if_pos ho, halu, add8_flags]
  obtain ⟨t, ht, ha, hflags, hxy, hpc, hframe⟩ := fallThrough_setAccFlags s _ o.length
  refine ⟨t, ht, ?_⟩
  rw [ha]
  exact ⟨add8_toNat .., hflags, hxy, hpc, ha ▸ hframe⟩

/-- Settles O9: both are `sub8`, the borrow in for `SBC` only. -/
theorem subAndSbc : Obligations.SubAndSbc := by
  unfold Obligations.SubAndSbc
  intro carry o s ho
  have halu : s.alu (if carry then .sbc else .sub) (o.value s) =
      s.setAccFlags (sub8 s.a (o.value s) (carry && s.flag .c)).1 (sub8 s.a (o.value s) (carry && s.flag .c)).2
        (sub8 s.a (o.value s) (carry && s.flag .c)).1 := by
    cases carry <;> rfl
  rw [exec_aluInstr, if_pos ho, halu, sub8_flags]
  obtain ⟨t, ht, ha, hflags, hxy, hpc, hframe⟩ := fallThrough_setAccFlags s _ o.length
  refine ⟨t, ht, ?_⟩
  rw [ha]
  exact ⟨sub8_toNat .., hflags, hxy, hpc, ha ▸ hframe⟩

/-- Settles O10: the flags of `sub8` without a borrow in, whose result is the difference. -/
theorem compare : Obligations.Compare := by
  unfold Obligations.Compare
  intro o s ho
  have halu : s.alu .cp (o.value s) = s.setFlags (sub8 s.a (o.value s) false).2 (o.value s) := rfl
  have hz : decide (s.a - o.value s = 0) = decide (s.a = o.value s) := by
    rw [decide_eq_decide]
    exact sub_eq_zero
  rw [exec_aluInstr, if_pos ho, halu, sub8_flags, sub8_false, hz]
  exact fallThrough_setFlags s _ o.length

/-! ### Logical operations -/

theorem logic_flags (op : LogicOp) (a v : Byte) :
    (logic op a v).2 = flagByte ((logic op a v).1.getLsbD 7) (decide ((logic op a v).1 = 0)) (decide (op = .and))
      (decide (onesOf (logic op a v).1 % 2 = 0)) false false := by
  cases op <;> simp [logic, szp, sz_eq, parity_eq, flagByte]
  ac_rfl

theorem exec_logic (op : LogicOp) (o : Source8) (s : State) (ho : o.readable s = true) :
    ∃ t, exec (aluInstr (LogicOp.alu op) o) s = .next t
      ∧ t.a = (logic op s.a (o.value s)).1
      ∧ t.FlagsAre (t.a.getLsbD 7) (decide (t.a = 0)) (decide (op = .and)) (decide (onesOf t.a % 2 = 0)) false false
      ∧ XyFrom s t t.a
      ∧ t.pc = s.pc + BitVec.ofNat 16 o.length
      ∧ t = { s with a := t.a, f := t.f, pc := t.pc, draws := t.draws } := by
  have halu : s.alu (LogicOp.alu op) (o.value s) = s.setAccFlags (logic op s.a (o.value s)).1 (logic op s.a (o.value s)).2
      (logic op s.a (o.value s)).1 := by
    cases op <;> rfl
  rw [exec_aluInstr, if_pos ho, halu, logic_flags]
  obtain ⟨t, ht, ha, hflags, hxy, hpc, hframe⟩ := fallThrough_setAccFlags s _ o.length
  refine ⟨t, ht, ?_⟩
  rw [ha]
  exact ⟨rfl, hflags, hxy, hpc, ha ▸ hframe⟩

/-- Settles O11, one operation at a time. -/
theorem logicalOperations : Obligations.LogicalOperations := by
  unfold Obligations.LogicalOperations
  intro op o s ho
  cases op with
  | and => exact exec_logic .and o s ho
  | xor => exact exec_logic .xor o s ho
  | or => exact exec_logic .or o s ho

/-! ### `INC` and `DEC` -/

theorem and_0x0F_toNat (v : Byte) : (v &&& 0x0F).toNat = v.toNat % 16 :=
  (BitVec.toNat_and ..).trans (Nat.and_two_pow_sub_one_eq_mod _ 4)

theorem inc8_flags (v fin : Byte) :
    (inc8 v fin).2 = flagByte ((v + 1).getLsbD 7) (decide (v = 0xFF)) (decide (v.toNat % 16 = 15)) (decide (v = 0x7F)) false
      (fin.getLsbD 0) := by
  have hz : decide (v + 1 = 0) = decide (v = 0xFF) := by
    rw [decide_eq_decide]
    bv_omega
  have hh : (v &&& 0x0F == 0x0F) = decide (v.toNat % 16 = 15) := by
    rw [Bool.beq_eq_decide_eq, ← and_0x0F_toNat, decide_eq_decide, ← BitVec.toNat_inj]
    rfl
  simp only [inc8, sz_eq, and_0x01, hz, hh, Bool.beq_eq_decide_eq, flagByte, flagIf_false, BitVec.or_zero]
  ac_rfl

theorem dec8_flags (v fin : Byte) :
    (dec8 v fin).2 = flagByte ((v - 1).getLsbD 7) (decide (v = 0x01)) (decide (v.toNat % 16 = 0)) (decide (v = 0x80)) true
      (fin.getLsbD 0) := by
  have hz : decide (v - 1 = 0) = decide (v = 0x01) := by
    rw [decide_eq_decide]
    bv_omega
  have hh : (v &&& 0x0F == 0x00) = decide (v.toNat % 16 = 0) := by
    rw [Bool.beq_eq_decide_eq, ← and_0x0F_toNat, decide_eq_decide, ← BitVec.toNat_inj]
    rfl
  simp only [dec8, sz_eq, and_0x01, hz, hh, Bool.beq_eq_decide_eq, flagByte, flagIf_true]
  ac_rfl

theorem State.inc8_eq (s : State) (v : Byte) :
    s.inc8 v = (v + 1, s.setFlags (flagByte ((v + 1).getLsbD 7) (decide (v = 0xFF)) (decide (v.toNat % 16 = 15)) (decide (v = 0x7F))
      false (s.flag .c)) (v + 1)) :=
  congrArg (fun f => (v + 1, s.setFlags f (v + 1))) (inc8_flags v s.f)

theorem State.dec8_eq (s : State) (v : Byte) :
    s.dec8 v = (v - 1, s.setFlags (flagByte ((v - 1).getLsbD 7) (decide (v = 0x01)) (decide (v.toNat % 16 = 0)) (decide (v = 0x80))
      true (s.flag .c)) (v - 1)) :=
  congrArg (fun f => (v - 1, s.setFlags f (v - 1))) (dec8_flags v s.f)

/-- Settles O13: a register place by `fallThrough_setPlace`, a byte of memory by `modifyByte_setFlags`. -/
theorem increment8 : Obligations.Increment8 := by
  unfold Obligations.Increment8
  refine ⟨fun p s => ?_, fun m s hr hw => ?_⟩
  · have hexec : exec (incPlace p) s = fallThrough (p.set (s.inc8 (p.value s)).2 (s.inc8 (p.value s)).1) p.length := by
      cases p <;> rfl
    rw [hexec, State.inc8_eq]
    obtain ⟨t, ht, hv, hflags, hxy, hpc, hframe⟩ := fallThrough_setPlace p s _ p.length
    exact ⟨t, ht, hv, hflags, hxy, hpc, hv ▸ hframe⟩
  · rw [exec_incMem]
    exact modifyByte_setFlags hr hw (s.inc8_eq _) m.countLength

/-- Settles O14, as O13. -/
theorem decrement8 : Obligations.Decrement8 := by
  unfold Obligations.Decrement8
  refine ⟨fun p s => ?_, fun m s hr hw => ?_⟩
  · have hexec : exec (decPlace p) s = fallThrough (p.set (s.dec8 (p.value s)).2 (s.dec8 (p.value s)).1) p.length := by
      cases p <;> rfl
    rw [hexec, State.dec8_eq]
    obtain ⟨t, ht, hv, hflags, hxy, hpc, hframe⟩ := fallThrough_setPlace p s _ p.length
    exact ⟨t, ht, hv, hflags, hxy, hpc, hv ▸ hframe⟩
  · rw [exec_decMem]
    exact modifyByte_setFlags hr hw (s.dec8_eq _) m.countLength

end Sys2Proof.Machine

/-! Decimal adjustment (41_alu_flags.md R195), and what it makes of a sum or a difference of packed decimal bytes (R183, R184). -/

namespace Sys2Proof.Machine

theorem daa_fst (s : State) :
    (daa s.a s.f).1 = if s.flag .n then s.a - daaCorrection s else s.a + daaCorrection s := rfl

theorem daa_flags (s : State) :
    (daa s.a s.f).2 = flagByte ((daa s.a s.f).1.getLsbD 7) (decide ((daa s.a s.f).1 = 0))
      (if s.flag .n then s.flag .h && decide (s.a.toNat % 16 < 6) else decide (9 < s.a.toNat % 16))
      (decide (onesOf (daa s.a s.f).1 % 2 = 0)) (s.flag .n) (s.flag .c || decide (0x99 < s.a.toNat)) := by
  have h : (daa s.a s.f).2 = szp (daa s.a s.f).1
      ||| flagIf (if s.flag .n then s.flag .h && decide (s.a.toNat % 16 < 6) else decide (9 < s.a.toNat % 16)) 0x10
      ||| flagIf (s.flag .n) 0x02 ||| flagIf (s.flag .c || decide (0x99 < s.a.toNat)) 0x01 := rfl
  rw [h, szp, sz_eq, parity_eq, flagByte]
  ac_rfl

/-- Settles O16: the rule written with the flags by name. -/
theorem decimalAdjust : Obligations.DecimalAdjust := by
  unfold Obligations.DecimalAdjust
  intro s
  have hexec : exec .daa s = fallThrough (s.setAccFlags (daa s.a s.f).1 (daa s.a s.f).2 (daa s.a s.f).1) 1 := rfl
  rw [hexec, daa_flags]
  obtain ⟨t, ht, ha, hflags, hxy, hpc, hframe⟩ := fallThrough_setAccFlags s _ 1
  refine ⟨t, ht, ?_⟩
  rw [ha]
  exact ⟨daa_fst s, hflags, hxy, hpc, ha ▸ hframe⟩

theorem daaCorrection_toNat (s : State) :
    (daaCorrection s).toNat =
      (if s.flag .h = true ∨ 9 < s.a.toNat % 16 then 6 else 0) + (if s.flag .c = true ∨ 0x99 < s.a.toNat then 0x60 else 0) := by
  simp only [daaCorrection, Bool.or_eq_true, decide_eq_true_eq]
  split <;> split <;> rfl

/-! ### Packed decimal bytes -/

theorem isPackedDecimal_iff (v : Byte) : isPackedDecimal v = true ↔ v.toNat % 16 ≤ 9 ∧ v.toNat / 16 ≤ 9 := by
  simp only [isPackedDecimal, Bool.and_eq_true, decide_eq_true_eq]

theorem packedDecimal_of_digits {v : Byte} {n : Nat} (h l : Nat)
    (hv : h ≤ 9 ∧ l ≤ 9 ∧ v.toNat = 16 * h + l ∧ n = 10 * h + l) : isPackedDecimal v = true ∧ decimalOf v = n := by
  rw [isPackedDecimal_iff, decimalOf]
  omega

section
variable {x y t corr : Byte} (hx : isPackedDecimal x = true) (hy : isPackedDecimal y = true)
include hx hy

theorem carry_of_sum_iff (ht : t.toNat = (x.toNat + y.toNat) % 256) :
    256 ≤ x.toNat + y.toNat ∨ 0x99 < t.toNat ↔ 100 ≤ decimalOf x + decimalOf y := by
  rw [isPackedDecimal_iff] at hx hy
  simp only [decimalOf]
  omega

/-- A digit sum above 9, with or without a carry out of its nibble, gains 6: one case for each pair of digits that do. -/
theorem packedDecimal_sum (ht : t.toNat = (x.toNat + y.toNat) % 256)
    (hcorr : corr.toNat = (if 16 ≤ x.toNat % 16 + y.toNat % 16 ∨ 9 < t.toNat % 16 then 6 else 0)
      + (if 256 ≤ x.toNat + y.toNat ∨ 0x99 < t.toNat then 0x60 else 0)) :
    isPackedDecimal (t + corr) = true ∧ decimalOf (t + corr) = (decimalOf x + decimalOf y) % 100 := by
  have hdx : decimalOf x = 10 * (x.toNat / 16) + x.toNat % 16 := rfl
  have hdy : decimalOf y = 10 * (y.toNat / 16) + y.toNat % 16 := rfl
  have hr : (t + corr).toNat = (x.toNat + y.toNat + corr.toNat) % 256 := by
    rw [BitVec.toNat_add, ht]
    omega
  have hhigh := carry_of_sum_iff hx hy ht
  rw [isPackedDecimal_iff] at hx hy
  have hlow : 16 ≤ x.toNat % 16 + y.toNat % 16 ∨ 9 < t.toNat % 16 ↔ 10 ≤ x.toNat % 16 + y.toNat % 16 := by omega
  simp only [hlow, hhigh] at hcorr
  clear hlow hhigh ht
  split at hcorr <;> split at hcorr
  · exact packedDecimal_of_digits (x.toNat / 16 + y.toNat / 16 + 1 - 10) (x.toNat % 16 + y.toNat % 16 - 10) (by omega)
  · exact packedDecimal_of_digits (x.toNat / 16 + y.toNat / 16 + 1) (x.toNat % 16 + y.toNat % 16 - 10) (by omega)
  · exact packedDecimal_of_digits (x.toNat / 16 + y.toNat / 16 - 10) (x.toNat % 16 + y.toNat % 16) (by omega)
  · exact packedDecimal_of_digits (x.toNat / 16 + y.toNat / 16) (x.toNat % 16 + y.toNat % 16) (by omega)

theorem borrow_of_difference_iff (ht : (t.toNat : Int) = ((x.toNat : Int) - y.toNat) % 256) :
    x.toNat < y.toNat ∨ 0x99 < t.toNat ↔ decimalOf x < decimalOf y := by
  have hnoborrow : y.toNat ≤ x.toNat → t.toNat = x.toNat - y.toNat := by omega
  rw [isPackedDecimal_iff] at hx hy
  simp only [decimalOf]
  omega

/-- A digit that has borrowed loses 6: one case for each pair of digits that have. -/
theorem packedDecimal_difference (ht : (t.toNat : Int) = ((x.toNat : Int) - y.toNat) % 256)
    (hcorr : corr.toNat = (if x.toNat % 16 < y.toNat % 16 ∨ 9 < t.toNat % 16 then 6 else 0)
      + (if x.toNat < y.toNat ∨ 0x99 < t.toNat then 0x60 else 0)) :
    isPackedDecimal (t - corr) = true ∧ decimalOf (t - corr) = (decimalOf x + 100 - decimalOf y) % 100 := by
  have hdx : decimalOf x = 10 * (x.toNat / 16) + x.toNat % 16 := rfl
  have hdy : decimalOf y = 10 * (y.toNat / 16) + y.toNat % 16 := rfl
  have hr : ((t - corr).toNat : Int) = ((x.toNat : Int) - y.toNat - corr.toNat) % 256 := by
    rw [BitVec.toNat_sub]
    omega
  have hhigh := borrow_of_difference_iff hx hy ht
  rw [isPackedDecimal_iff] at hx hy
  have hlow : x.toNat % 16 < y.toNat % 16 ∨ 9 < t.toNat % 16 ↔ x.toNat % 16 < y.toNat % 16 := by omega
  simp only [hlow, hhigh] at hcorr
  clear hlow hhigh ht
  split at hcorr <;> split at hcorr
  · exact packedDecimal_of_digits (x.toNat / 16 + 9 - y.toNat / 16) (x.toNat % 16 + 10 - y.toNat % 16) (by omega)
  · exact packedDecimal_of_digits (x.toNat / 16 - 1 - y.toNat / 16) (x.toNat % 16 + 10 - y.toNat % 16) (by omega)
  · exact packedDecimal_of_digits (x.toNat / 16 + 10 - y.toNat / 16) (x.toNat % 16 - y.toNat % 16) (by omega)
  · exact packedDecimal_of_digits (x.toNat / 16 - y.toNat / 16) (x.toNat % 16 - y.toNat % 16) (by omega)

end

/-- Settles O17: the flags and the result of `ADD` and `SUB` give the correction that `DAA` makes. -/
theorem decimalAdjustGivesDecimal : Obligations.DecimalAdjustGivesDecimal := by
  unfold Obligations.DecimalAdjustGivesDecimal
  intro s n hs hn
  constructor
  · obtain ⟨t, ht, hta, ⟨-, -, hh, -, htn, hc⟩, -, -, -⟩ := addAndAdc false (.imm n) s rfl
    obtain ⟨u, hu, hua, ⟨-, -, -, -, -, huc⟩, -, -, -⟩ := decimalAdjust t
    have hcorr := daaCorrection_toNat t
    simp only [Source8.value, Bool.false_and, Bool.toNat_false, Nat.add_zero] at hta hh hc
    simp only [hh, hc, decide_eq_true_eq] at hcorr
    rw [htn, if_neg Bool.false_ne_true] at hua
    rw [hc, ← Bool.decide_or] at huc
    obtain ⟨hpacked, hdec⟩ := packedDecimal_sum hs hn hta hcorr
    rw [← hua] at hpacked hdec
    exact ⟨t, u, ht, hu, hpacked, hdec, huc.trans (decide_eq_decide.2 (carry_of_sum_iff hs hn hta))⟩
  · obtain ⟨t, ht, hta, ⟨-, -, hh, -, htn, hc⟩, -, -, -⟩ := subAndSbc false (.imm n) s rfl
    obtain ⟨u, hu, hua, ⟨-, -, -, -, -, huc⟩, -, -, -⟩ := decimalAdjust t
    have hcorr := daaCorrection_toNat t
    simp only [Source8.value, Bool.false_and, Bool.toNat_false, Nat.add_zero, Nat.cast_zero, sub_zero] at hta hh hc
    simp only [hh, hc, decide_eq_true_eq] at hcorr
    rw [htn, if_pos rfl] at hua
    rw [hc, ← Bool.decide_or] at huc
    obtain ⟨hpacked, hdec⟩ := packedDecimal_difference hs hn hta hcorr
    rw [← hua] at hpacked hdec
    exact ⟨t, u, ht, hu, hpacked, hdec, huc.trans (decide_eq_decide.2 (borrow_of_difference_iff hs hn hta))⟩

end Sys2Proof.Machine

/-! The instructions that keep some of `F` (41_alu_flags.md R194, R196 to R198, R200), and the rotates and shifts (R193). -/

namespace Sys2Proof.Machine

/-! ### `S`, `Z` and `PV` kept -/

theorem and_0xC4 (f : Byte) :
    f &&& 0xC4 = flagIf (f.getLsbD 7) 0x80 ||| flagIf (f.getLsbD 6) 0x40 ||| flagIf (f.getLsbD 2) 0x04 := by
  have hmask : (0xC4 : Byte) = 0x80 ||| 0x40 ||| 0x04 := rfl
  rw [hmask, BitVec.and_or_distrib_left, BitVec.and_or_distrib_left, and_0x80, and_0x40, and_0x04]

/-- `S`, `Z` and `PV` of `f`, beside new `H`, `N` and `C`. -/
theorem kept_eq_flagByte (f : Byte) (h n c : Bool) :
    (f &&& 0xC4) ||| flagIf h 0x10 ||| flagIf n 0x02 ||| flagIf c 0x01 =
      flagByte (f.getLsbD 7) (f.getLsbD 6) h (f.getLsbD 2) n c := by
  rw [and_0xC4, flagByte]
  ac_rfl

/-- `H` and `N` set, `C` kept (R196). -/
theorem cpl_flags (f : Byte) :
    (f &&& 0xC5) ||| 0x12 = flagByte (f.getLsbD 7) (f.getLsbD 6) true (f.getLsbD 2) true (f.getLsbD 0) := by
  have hmask : (0xC5 : Byte) = 0xC4 ||| 0x01 := rfl
  have hset : (0x12 : Byte) = 0x10 ||| 0x02 := rfl
  rw [← kept_eq_flagByte, hmask, hset, BitVec.and_or_distrib_left, and_0x01, flagIf_true, flagIf_true]
  ac_rfl

theorem ccf_flags (f : Byte) (c : Bool) :
    (f &&& 0xC4) ||| flagIf c 0x10 ||| flagIf (!c) 0x01 = flagByte (f.getLsbD 7) (f.getLsbD 6) c (f.getLsbD 2) false (!c) := by
  rw [← kept_eq_flagByte, flagIf_false, BitVec.or_zero]

theorem keptCarry_flags (f : Byte) (c : Bool) :
    (f &&& 0xC4) ||| flagIf c 0x01 = flagByte (f.getLsbD 7) (f.getLsbD 6) false (f.getLsbD 2) false c := by
  rw [← kept_eq_flagByte, flagIf_false, flagIf_false, BitVec.or_zero, BitVec.or_zero]

/-- Settles O18: each writes a byte of kept and of new flags. -/
theorem complementAndCarry : Obligations.ComplementAndCarry := by
  unfold Obligations.ComplementAndCarry
  refine fun s => ⟨?_, ?_, ?_⟩
  · have hexec : exec .cpl s = fallThrough (s.setAccFlags (~~~s.a) ((s.f &&& 0xC5) ||| 0x12) (~~~s.a)) 1 := rfl
    rw [hexec, cpl_flags]
    obtain ⟨t, ht, ha, hflags, hxy, hpc, hframe⟩ := fallThrough_setAccFlags s _ 1
    exact ⟨t, ht, ha, hflags, ha ▸ hxy, hpc, hframe⟩
  · have hexec : exec .ccf s =
        fallThrough (s.setFlagsDrawn ((s.f &&& 0xC4) ||| flagIf s.carry 0x10 ||| flagIf (!s.carry) 0x01) 0x28) 1 := rfl
    rw [hexec, ccf_flags]
    exact fallThrough_setFlagsDrawn s 1
  · have hexec : exec .scf s = fallThrough (s.setFlagsDrawn ((s.f &&& 0xC4) ||| flagIf true 0x01) 0x28) 1 := rfl
    rw [hexec, keptCarry_flags]
    exact fallThrough_setFlagsDrawn s 1

/-! ### Rotates and shifts -/

theorem getLsbD_shiftLeft_or (v : Byte) (p : Bool) {k : Nat} (hk : k < 8) :
    ((v <<< 1) ||| flagIf p 0x01).getLsbD k = if k = 0 then p else v.getLsbD (k - 1) := by
  interval_cases k <;> simp

theorem getLsbD_shiftRight_or (v : Byte) (p : Bool) {k : Nat} (hk : k < 8) :
    ((v >>> 1) ||| flagIf p 0x80).getLsbD k = if k = 7 then p else v.getLsbD (k + 1) := by
  interval_cases k <;> simp

/-- Each row of R193 shifts one place and puts one bit into the place left free. -/
theorem rotate_getLsbD (op : RotOp) (v : Byte) (cin : Bool) {k : Nat} (hk : k < 8) :
    (rotate op v cin).1.getLsbD k = rotateBit op v cin k := by
  cases op with
  | rlc => exact getLsbD_shiftLeft_or v (v.getLsbD 7) hk
  | rrc => exact getLsbD_shiftRight_or v (v.getLsbD 0) hk
  | rl => exact getLsbD_shiftLeft_or v cin hk
  | rr => exact getLsbD_shiftRight_or v cin hk
  | sla => exact (congrArg (BitVec.getLsbD · k) BitVec.or_zero.symm).trans (getLsbD_shiftLeft_or v false hk)
  | sra => exact (congrArg (fun b => ((v >>> 1) ||| b).getLsbD k) (and_0x80 v)).trans (getLsbD_shiftRight_or v (v.getLsbD 7) hk)
  | sll => exact getLsbD_shiftLeft_or v true hk
  | srl => exact (congrArg (BitVec.getLsbD · k) BitVec.or_zero.symm).trans (getLsbD_shiftRight_or v false hk)

theorem rotate_snd (op : RotOp) (v : Byte) (cin : Bool) : (rotate op v cin).2 = rotateOut op v := by
  cases op <;> rfl

theorem rotate_flags (q : Byte) (out : Bool) :
    szp q ||| flagIf out 0x01 =
      flagByte (q.getLsbD 7) (decide (q = 0)) false (decide (onesOf q % 2 = 0)) false out := by
  rw [szp, sz_eq, parity_eq, flagByte, flagIf_false, flagIf_false, BitVec.or_zero, BitVec.or_zero]

theorem State.rotate_eq (s : State) (op : RotOp) (v : Byte) :
    s.rotate op v = ((Machine.rotate op v s.carry).1, s.setFlags (flagByte ((Machine.rotate op v s.carry).1.getLsbD 7)
      (decide ((Machine.rotate op v s.carry).1 = 0)) false (decide (onesOf (Machine.rotate op v s.carry).1 % 2 = 0)) false
      (rotateOut op v)) (Machine.rotate op v s.carry).1) := by
  rw [State.rotate, rotate_snd, rotate_flags]

/-- Settles O22: the register form writes a register place with the flags of the byte written. -/
theorem rotateRegister : Obligations.RotateRegister := by
  unfold Obligations.RotateRegister
  intro op r s
  have hexec : exec (rotateReg op r) s =
      fallThrough ((Place8.reg r).set (s.rotate op (s.reg8 r)).2 (s.rotate op (s.reg8 r)).1) 2 := by
    cases op <;> rfl
  rw [hexec, State.rotate_eq]
  obtain ⟨t, ht, hv, hflags, hxy, hpc, hframe⟩ := fallThrough_setPlace (.reg r) s _ 2
  refine ⟨t, ht, ?_⟩
  rw [show t.reg8 r = _ from hv]
  exact ⟨fun k hk => rotate_getLsbD op _ _ hk, hflags, hxy, hpc, hframe.trans ((Place8.reg r).set_frame ..)⟩

/-- Settles O24: the rows of R193 for `A`, with `S`, `Z` and `PV` kept. -/
theorem rotateAccumulator : Obligations.RotateAccumulator := by
  unfold Obligations.RotateAccumulator
  intro op i s hi
  have hexec : exec i s = fallThrough (s.rotateA op) 1 := by
    simp only [List.mem_cons, Prod.mk.injEq, List.not_mem_nil, or_false] at hi
    rcases hi with ⟨rfl, rfl⟩ | ⟨rfl, rfl⟩ | ⟨rfl, rfl⟩ | ⟨rfl, rfl⟩ <;> rfl
  rw [hexec, State.rotateA, rotate_snd, keptCarry_flags]
  obtain ⟨t, ht, ha, hflags, hxy, hpc, hframe⟩ := fallThrough_setAccFlags s _ 1
  refine ⟨t, ht, ?_⟩
  rw [ha]
  exact ⟨fun k hk => rotate_getLsbD op _ _ hk, hflags, hxy, hpc, ha ▸ hframe⟩

/-! ### `LD A,I` and `LD A,R` -/

theorem irFlags_eq_flagByte (v : Byte) (iff2 : BitVec 1) (fin : Byte) :
    irFlags v iff2 fin = flagByte (v.getLsbD 7) (decide (v = 0)) false (decide (iff2 = 1)) false (fin.getLsbD 0) := by
  rw [irFlags, sz_eq, and_0x01, Bool.beq_eq_decide_eq, flagByte, flagIf_false, flagIf_false, BitVec.or_zero, BitVec.or_zero]
  ac_rfl

theorem fallThrough_loadIr (s : State) (v : Byte) (len : Nat) :
    ∃ t, fallThrough (s.loadIr v) len = .next t ∧ t.a = v
      ∧ t.FlagsAre (v.getLsbD 7) (decide (v = 0)) false (decide (s.iff2 = 1)) false (s.flag .c)
      ∧ XyFrom s t v ∧ t.pc = s.pc + BitVec.ofNat 16 len
      ∧ t = { s with a := t.a, f := t.f, pc := t.pc, draws := t.draws } := by
  rw [State.loadIr, irFlags_eq_flagByte]
  exact fallThrough_setAccFlags s v len

/-- Settles O31: the byte that `LD A,R` loads is the first draw, so its flags are those of `LD A,I` one draw later. -/
theorem specialRegisters : Obligations.SpecialRegisters := by
  unfold Obligations.SpecialRegisters
  refine ⟨fun s => ⟨fallThrough_loadIr s s.i 2, ?_⟩, fun s => ⟨rfl, rfl⟩⟩
  obtain ⟨t, ht, ha, hflags, hxy, hpc, hframe⟩ := fallThrough_loadIr s.afterDraw s.drawn 2
  refine ⟨t, ht, ha, ?_, ?_, hpc, hframe⟩
  · rw [ha]
    exact hflags
  · rw [ha]
    exact hxy

end Sys2Proof.Machine

/-! `BIT` (41_alu_flags.md R199): what both policies fix, and the rest by policy. -/

namespace Sys2Proof.Machine

section
variable (b : Fin 8) (v fin : Byte)

theorem bitFixed_eq_flagByte :
    bitFixed b v fin = flagByte false (!v.getLsbD b.val) true false false (fin.getLsbD 0) := by
  rw [bitFixed, and_0x01, flagByte, flagIf_false, flagIf_false, flagIf_false, flagIf_true, BitVec.or_zero, BitVec.or_zero,
    BitVec.zero_or]
  simp only [bitOf]
  ac_rfl

theorem bitFixed_or_bitSignParity_eq_flagByte :
    bitFixed b v fin ||| bitSignParity b v =
      flagByte (decide (b = 7) && v.getLsbD 7) (!v.getLsbD b.val) true (!v.getLsbD b.val) false (fin.getLsbD 0) := by
  have hb : (b.val == 7) = decide (b = 7) := by
    revert b
    decide
  rw [bitFixed, bitSignParity, hb, and_0x01, flagByte, flagIf_false, flagIf_true, BitVec.or_zero]
  simp only [bitOf]
  ac_rfl

end

section
variable (s : State) (b : Fin 8) (v y : Byte) (draws len : Nat)

/-- `BIT` under `Z80`, `y` the source of bits 5 and 3. -/
theorem fallThrough_bit_z80 :
    ∃ t, fallThrough { s with f := bitFixed b v s.f ||| bitSignParity b v ||| (y &&& 0x28), draws := draws } len = .next t
      ∧ t.FlagsAre (decide (b = 7) && v.getLsbD 7) (!v.getLsbD b.val) true (!v.getLsbD b.val) false (s.flag .c)
      ∧ t.f &&& 0x28 = y &&& 0x28 ∧ t.draws = draws ∧ t.pc = s.pc + BitVec.ofNat 16 len
      ∧ t = { s with f := t.f, pc := t.pc, draws := t.draws } := by
  rw [bitFixed_or_bitSignParity_eq_flagByte]
  exact ⟨_, rfl, flagsAre_of_f_eq rfl, flagByte_or_and_open .., rfl, rfl, rfl⟩

/-- `BIT` under `DRAW`: `S`, `PV` and bits 5 and 3 are those of one draw `y`. -/
theorem fallThrough_bit_draw :
    ∃ t, fallThrough { s with f := bitFixed b v s.f ||| (y &&& 0xAC), draws := draws } len = .next t
      ∧ (t.flag .z = (!v.getLsbD b.val) ∧ t.flag .h = true ∧ t.flag .n = false ∧ t.flag .c = s.flag .c)
      ∧ t.f &&& 0xAC = y &&& 0xAC ∧ t.draws = draws ∧ t.pc = s.pc + BitVec.ofNat 16 len
      ∧ t = { s with f := t.f, pc := t.pc, draws := t.draws } := by
  have hclear (z c : Bool) : flagByte false z true false false c &&& 0xAC = 0 := by
    revert z c
    decide
  rw [bitFixed_eq_flagByte]
  refine ⟨_, rfl, ⟨?_, ?_, ?_, ?_⟩, or_and_and_of_and_eq_zero y (hclear ..), rfl, rfl, rfl⟩ <;>
    simp [State.flag, Flag.bit, flagByte]

end

theorem exec_bitMemInstr (b : Fin 8) (m : Mem8) (s : State) :
    exec (bitMemInstr b m) s = loadByte s (m.address s) fun v => fallThrough (s.bitMem b v) m.cbLength := by
  cases m <;> rfl

/-- Settles O25, by the policy in each of the two forms. -/
theorem bitTest : Obligations.BitTest := by
  unfold Obligations.BitTest
  refine ⟨fun b r s => ?_, fun b m s hr => ?_, fun b m s hr => ?_⟩
  · have hexec : exec (.bitR b r) s = fallThrough (s.bitReg b (s.reg8 r)) 2 := rfl
    rw [hexec, State.bitReg]
    cases s.params.undoc with
    | z80 =>
      obtain ⟨t, ht, ⟨hs, hz, hh, hpv, hn, hc⟩, hopen, hdraws, hpc, hframe⟩ :=
        fallThrough_bit_z80 s b (s.reg8 r) (s.reg8 r) s.draws 2
      exact ⟨t, ht, hz, hh, hn, hc, fun _ => ⟨hs, hpv.trans hz.symm, hopen, hdraws⟩, nofun, hpc, hframe⟩
    | draw =>
      obtain ⟨t, ht, ⟨hz, hh, hn, hc⟩, hopen, hdraws, hpc, hframe⟩ :=
        fallThrough_bit_draw s b (s.reg8 r) s.drawn (s.draws + 1) 2
      exact ⟨t, ht, hz, hh, hn, hc, nofun, fun _ => ⟨hopen, hdraws⟩, hpc, hframe⟩
  · rw [exec_bitMemInstr, loadByte, if_pos hr, State.bitMem]
    cases s.params.undoc with
    | z80 =>
      obtain ⟨t, ht, ⟨hs, hz, hh, hpv, hn, hc⟩, hopen, hdraws, hpc, hframe⟩ :=
        fallThrough_bit_z80 s b (s.readByte (m.address s)) s.drawn (s.draws + 1) m.cbLength
      exact ⟨t, ht, hz, hh, hn, hc, fun _ => ⟨hs, hpv.trans hz.symm, hopen⟩, nofun, hdraws, hpc, hframe⟩
    | draw =>
      obtain ⟨t, ht, ⟨hz, hh, hn, hc⟩, hopen, hdraws, hpc, hframe⟩ :=
        fallThrough_bit_draw s b (s.readByte (m.address s)) s.drawn (s.draws + 1) m.cbLength
      exact ⟨t, ht, hz, hh, hn, hc, nofun, fun _ => hopen, hdraws, hpc, hframe⟩
  · rw [exec_bitMemInstr]
    exact loadByte_stuck _ _ _ hr

end Sys2Proof.Machine

/-! 16-bit arithmetic (41_alu_flags.md R188 to R191): the sums of `ADD`, and `ADC` and `SBC` by exact arithmetic. -/

namespace Sys2Proof.Machine

/-! ### `ADD` -/

theorem add16_toNat (x y : Word) (fin : Byte) : (add16 x y fin).1.toNat = (x.toNat + y.toNat) % 65536 :=
  BitVec.toNat_ofNat ..

theorem add16_flags (x y : Word) (fin : Byte) :
    (add16 x y fin).2 = flagByte (fin.getLsbD 7) (fin.getLsbD 6) (decide (4096 ≤ x.toNat % 4096 + y.toNat % 4096))
      (fin.getLsbD 2) false (decide (65536 ≤ x.toNat + y.toNat)) := by
  rw [← kept_eq_flagByte, flagIf_false, BitVec.or_zero]
  rfl

/-- A write of an index register is beside one of `F`, `PC` and the draw counter. -/
theorem State.setIndex_frame (s : State) (x : IndexReg) (w : Word) (f : Byte) (pc : Word) (draws : Nat) :
    State.setIndex { s with f := f, pc := pc, draws := draws } x w = { s.setIndex x w with f := f, pc := pc, draws := draws } := by
  cases x <;> rfl

theorem State.half_high_of_index {s : State} {x : IndexReg} {w : Word} (h : s.index x = w) : s.half x .high = hi w := by
  rw [← h, State.index, hi_join]

theorem fallThrough_setFlags_setIndex (s : State) (x : IndexReg) (w : Word) (sf z h pv n c : Bool) (len : Nat) :
    ∃ t, fallThrough ((s.setFlags (flagByte sf z h pv n c) (hi w)).setIndex x w) len = .next t
      ∧ t.index x = w ∧ t.FlagsAre sf z h pv n c ∧ XyFrom s t (hi w) ∧ t.pc = s.pc + BitVec.ofNat 16 len
      ∧ t = { s.setIndex x w with f := t.f, pc := t.pc, draws := t.draws } := by
  rw [State.setFlags_frame, State.setIndex_frame]
  refine ⟨_, rfl, ?_, flagsAre_of_xyBits rfl, xyFrom_of_xyBits rfl rfl, rfl, rfl⟩
  rw [← State.setIndex_frame, State.index_setIndex, if_pos rfl]

end Sys2Proof.Machine

namespace Sys2Proof

open Machine

/-- Settles O19: the sum and its flags, then the pair written by its halves. It stands outside `Machine`, where `add16` is the sum
itself. -/
theorem add16 : Obligations.Add16 := by
  unfold Obligations.Add16
  refine ⟨fun p s => ?_, fun x p s => ?_⟩
  · have hexec : exec (.addHlSs p) s = fallThrough ((s.setFlags (Machine.add16 s.hl (s.pair p) s.f).2
        (hi (Machine.add16 s.hl (s.pair p) s.f).1)).setHl (Machine.add16 s.hl (s.pair p) s.f).1) 1 := rfl
    rw [hexec, add16_flags, State.setFlags_frame]
    refine ⟨_, rfl, ?_, flagsAre_of_xyBits rfl, xyFrom_of_xyBits rfl rfl, rfl, rfl⟩
    exact (congrArg BitVec.toNat (join_hi_lo _)).trans (add16_toNat ..)
  · have hexec : exec (.addXyPp x p) s = fallThrough ((s.setFlags (Machine.add16 (s.index x) (s.indexAddPair x p) s.f).2
        (hi (Machine.add16 (s.index x) (s.indexAddPair x p) s.f).1)).setIndex x
          (Machine.add16 (s.index x) (s.indexAddPair x p) s.f).1) 2 := rfl
    rw [hexec, add16_flags]
    obtain ⟨t, ht, hindex, hflags, hxy, hpc, hframe⟩ := fallThrough_setFlags_setIndex s x _ _ _ _ _ _ _ 2
    refine ⟨t, ht, ?_⟩
    rw [State.half_high_of_index hindex, hindex]
    exact ⟨add16_toNat .., hflags, hxy, hpc, hframe⟩

end Sys2Proof

namespace Sys2Proof.Machine

/-! ### `ADC` and `SBC` -/

theorem testBit_eq_decide (n : Int) (i : Nat) : Int.testBit n i = decide (n / 2 ^ i % 2 = 1) := by
  have hzero (m : Int) : Int.testBit m 0 = decide (m % 2 = 1) := by
    cases m with
    | ofNat m =>
      rw [Int.testBit, Nat.testBit_zero, decide_eq_decide, Int.ofNat_eq_natCast]
      omega
    | negSucc m =>
      rw [Int.testBit, Nat.testBit_zero, ← decide_not, decide_eq_decide, Int.negSucc_eq]
      omega
  rw [← hzero, testBit_ediv_two_pow, Nat.zero_add]

theorem bne_decide (p q : Prop) [Decidable p] [Decidable q] : (decide p != decide q) = decide ¬(p ↔ q) := by
  by_cases hp : p <;> by_cases hq : q <;> simp [hp, hq]

section
variable {x y : Word} {n : Int} {c : Bool}

/-- The bits that a sum or difference xors at place 12 differ by the carry or borrow into it. -/
theorem half16_add (hn : n = x.toNat + y.toNat + c.toNat) :
    half16 x y n = flagIf (decide (4096 ≤ x.toNat % 4096 + y.toNat % 4096 + c.toNat)) 0x10 := by
  have hc := c.toNat_le
  rw [half16, testBit_intXor, testBit_intXor, testBit_eq_decide, testBit_eq_decide, testBit_eq_decide, bne_decide, bne_decide]
  congr 1
  rw [decide_eq_decide]
  omega

theorem half16_sub (hn : n = x.toNat - y.toNat - c.toNat) :
    half16 x y n = flagIf (decide (x.toNat % 4096 < y.toNat % 4096 + c.toNat)) 0x10 := by
  have hc := c.toNat_le
  rw [half16, testBit_intXor, testBit_intXor, testBit_eq_decide, testBit_eq_decide, testBit_eq_decide, bne_decide, bne_decide]
  congr 1
  rw [decide_eq_decide]
  omega

theorem testBit_0x8000 : Int.testBit 0x8000 15 = true := by
  decide

/-- Operands of one sign and a sum of the other. -/
theorem addOverflow16_testBit (hn : n = x.toNat + y.toNat + c.toNat) :
    Int.testBit (addOverflow16 x y n) 15 = decide (s16 x + s16 y + c.toNat < -32768 ∨ 32767 < s16 x + s16 y + c.toNat) := by
  have hc := c.toNat_le
  have hx := x.isLt
  have hy := y.isLt
  rw [addOverflow16, testBit_intAnd, testBit_intXor, testBit_intXor, testBit_intXor, testBit_0x8000, Bool.bne_true, testBit_eq_decide,
    testBit_eq_decide, testBit_eq_decide, bne_decide, bne_decide, ← decide_not, ← Bool.decide_and, decide_eq_decide]
  unfold s16
  split <;> split <;> omega

theorem subOverflow16_testBit (hn : n = x.toNat - y.toNat - c.toNat) :
    Int.testBit (subOverflow16 x y n) 15 = decide (s16 x - s16 y - c.toNat < -32768 ∨ 32767 < s16 x - s16 y - c.toNat) := by
  have hc := c.toNat_le
  have hx := x.isLt
  have hy := y.isLt
  rw [subOverflow16, testBit_intAnd, testBit_intXor, testBit_intXor, testBit_eq_decide, testBit_eq_decide,
    testBit_eq_decide, bne_decide, bne_decide, ← Bool.decide_and, decide_eq_decide]
  unfold s16
  split <;> split <;> omega

end

theorem flags16_eq_flagByte (h g pv : Bool) (n : Int) :
    flags16 (flagIf h 0x10 ||| flagIf g 0x02) n ||| flagIf pv 0x04 =
      flagByte ((BitVec.ofInt 16 n).getLsbD 15) (decide (BitVec.ofInt 16 n = 0)) h pv g (Int.testBit n 16) := by
  rw [flags16, getLsbD_ofInt (by decide), Bool.beq_eq_decide_eq, flagByte]
  ac_rfl

section
variable (x y : Word) (c : Bool)

theorem adc16_toNat : (adc16 x y c).1.toNat = (x.toNat + y.toNat + c.toNat) % 65536 := by
  rw [adc16_eq x y c rfl, BitVec.toNat_ofInt]
  omega

theorem adc16_flags :
    (adc16 x y c).2 = flagByte ((adc16 x y c).1.getLsbD 15) (decide ((adc16 x y c).1 = 0))
      (decide (4096 ≤ x.toNat % 4096 + y.toNat % 4096 + c.toNat))
      (decide (s16 x + s16 y + c.toNat < -32768 ∨ 32767 < s16 x + s16 y + c.toNat)) false
      (decide (65536 ≤ x.toNat + y.toNat + c.toNat)) := by
  have hx := x.isLt
  have hy := y.isLt
  have hc := c.toNat_le
  have hcarry : Int.testBit (x.toNat + y.toNat + c.toNat) 16 = decide (65536 ≤ x.toNat + y.toNat + c.toNat) := by
    rw [testBit_eq_decide, decide_eq_decide]
    omega
  rw [adc16_eq x y c rfl, half16_add rfl, addOverflow16_testBit rfl, ← hcarry, ← flags16_eq_flagByte, flagIf_false, BitVec.or_zero]

theorem sbc16_toNat : ((sbc16 x y c).1.toNat : Int) = ((x.toNat : Int) - y.toNat - c.toNat) % 65536 := by
  rw [sbc16_eq x y c rfl, BitVec.toNat_ofInt]
  omega

theorem sbc16_flags :
    (sbc16 x y c).2 = flagByte ((sbc16 x y c).1.getLsbD 15) (decide ((sbc16 x y c).1 = 0))
      (decide (x.toNat % 4096 < y.toNat % 4096 + c.toNat))
      (decide (s16 x - s16 y - c.toNat < -32768 ∨ 32767 < s16 x - s16 y - c.toNat)) true
      (decide (x.toNat < y.toNat + c.toNat)) := by
  have hx := x.isLt
  have hy := y.isLt
  have hc := c.toNat_le
  have hborrow : Int.testBit (x.toNat - y.toNat - c.toNat) 16 = decide (x.toNat < y.toNat + c.toNat) := by
    rw [testBit_eq_decide, decide_eq_decide]
    omega
  rw [sbc16_eq x y c rfl, half16_sub rfl, subOverflow16_testBit rfl, ← hborrow, ← flags16_eq_flagByte, flagIf_true]

end

/-- `HL` and `F` written, bits 5 and 3 of `F` as 0. -/
theorem fallThrough_setHl_flagByte (s : State) (w : Word) (sf z h pv n c : Bool) (len : Nat) :
    ∃ t, fallThrough { s.setHl w with f := flagByte sf z h pv n c } len = .next t
      ∧ t.hl = w ∧ t.FlagsAre sf z h pv n c ∧ t.f &&& 0x28 = 0 ∧ t.pc = s.pc + BitVec.ofNat 16 len
      ∧ t = { s with h := t.h, l := t.l, f := t.f, pc := t.pc } :=
  ⟨_, rfl, join_hi_lo w, flagsAre_of_f_eq (y := 0) BitVec.or_zero.symm, flagByte_and_open, rfl, rfl⟩

/-- Settles O20: the bits that R189 and R190 mask, as the arithmetic facts they stand for. -/
theorem carryArithmetic16 : Obligations.CarryArithmetic16 := by
  unfold Obligations.CarryArithmetic16
  refine ⟨fun p s => ?_, fun p s => ?_⟩
  · have hexec : exec (.adcHlSs p) s = fallThrough { s.setHl (adc16 s.hl (s.pair p) (s.flag .c)).1 with
        f := (adc16 s.hl (s.pair p) (s.flag .c)).2 } 2 := rfl
    rw [hexec, adc16_flags]
    obtain ⟨t, ht, hhl, hflags, hopen, hpc, hframe⟩ := fallThrough_setHl_flagByte s _ _ _ _ _ _ _ 2
    refine ⟨t, ht, ?_⟩
    rw [hhl]
    exact ⟨adc16_toNat .., hflags, hopen, hpc, hframe⟩
  · have hexec : exec (.sbcHlSs p) s = fallThrough { s.setHl (sbc16 s.hl (s.pair p) (s.flag .c)).1 with
        f := (sbc16 s.hl (s.pair p) (s.flag .c)).2 } 2 := rfl
    rw [hexec, sbc16_flags]
    obtain ⟨t, ht, hhl, hflags, hopen, hpc, hframe⟩ := fallThrough_setHl_flagByte s _ _ _ _ _ _ _ 2
    refine ⟨t, ht, ?_⟩
    rw [hhl]
    exact ⟨sbc16_toNat .., hflags, hopen, hpc, hframe⟩

end Sys2Proof.Machine

/-! The two policies side by side (41_alu_flags.md R180, R199): the run under `Z80` and the run under `DRAW` make the same updates, but
for the open bits of `F` and the draws counted. -/

namespace Sys2Proof.Machine

/-- `s` under a policy. -/
def State.withUndoc (s : State) (p : UndocPolicy) : State := { s with params := { s.params with undoc := p } }

/-- `u` with another `F`, draw counter and policy. -/
def State.reflag (u : State) (f : Byte) (draws : Nat) (p : UndocPolicy) : State :=
  { u with f := f, draws := draws, params := { u.params with undoc := p } }

/-- `t` is `u` but for the policy, the draw counter and the bits of `F` outside `mask`. -/
def AlikeOn (mask : Byte) (t u : State) : Prop :=
  ∃ f draws p, t = u.reflag f draws p ∧ f &&& mask = u.f &&& mask

/-- The two runs end alike: next states that are alike, the same fault, or the same refusal. -/
def EndAlikeOn (mask : Byte) : Outcome State → Outcome State → Prop
  | .next t, .next u => AlikeOn mask t u
  | .fault q, .fault r => q = r
  | .refused q, .refused r => q = r
  | _, _ => False

theorem EndAlikeOn.ite {mask : Byte} {c : Prop} [Decidable c] {o o' q q' : Outcome State} (ho : EndAlikeOn mask o o')
    (hq : EndAlikeOn mask q q') : EndAlikeOn mask (if c then o else q) (if c then o' else q') := by
  split
  · exact ho
  · exact hq

theorem and_and_eq_zero {m mask : Byte} (y : Byte) (h : m &&& mask = 0) : y &&& m &&& mask = 0 := by
  rw [BitVec.and_assoc, h]
  exact BitVec.and_zero

theorem State.xyBits_and_eq_zero (s : State) {mask : Byte} (src : Byte) (hm : 0x28 &&& mask = 0) : s.xyBits src &&& mask = 0 := by
  unfold State.xyBits
  split
  · exact and_and_eq_zero _ hm
  · exact and_and_eq_zero _ hm

/-- `S` and `PV` after `BIT` are among the open bits (R199). -/
theorem bitSignParity_and_eq_zero (b : Fin 8) (v : Byte) {m : Byte} (hm : m &&& 0x53 = 0) (y : Byte) :
    (bitSignParity b v ||| (y &&& m)) &&& 0x53 = 0 := by
  have hflags (p q : Bool) : 0x53 &&& (flagIf p 0x04 ||| flagIf q 0x80) = 0 := by
    revert p q
    decide
  rw [BitVec.and_comm, BitVec.and_or_distrib_left, bitSignParity, hflags, BitVec.and_comm, and_and_eq_zero y hm]
  rfl

namespace AlikeOn

variable {mask : Byte} {t u : State}

theorem start (s : State) : AlikeOn mask (s.withUndoc .z80) (s.withUndoc .draw) := ⟨s.f, s.draws, .z80, rfl, rfl⟩

/-! ### Updates that leave `F`, the draw counter and the policy alone -/

theorem update (h : AlikeOn mask t u) {g : State → State} (hf : (g u).f = u.f)
    (hg : ∀ f draws p, g (u.reflag f draws p) = (g u).reflag f draws p) : AlikeOn mask (g t) (g u) := by
  obtain ⟨f, draws, p, rfl, hmask⟩ := h
  exact ⟨f, draws, p, hg f draws p, hf ▸ hmask⟩

theorem setReg8 (h : AlikeOn mask t u) (r : Reg8) (v : Byte) : AlikeOn mask (t.setReg8 r v) (u.setReg8 r v) :=
  h.update (g := (State.setReg8 · r v)) (u.setReg8_f r v) fun _ _ _ => by cases r <;> rfl

theorem setHalf (h : AlikeOn mask t u) (x : IndexReg) (q : IndexHalf) (v : Byte) :
    AlikeOn mask (t.setHalf x q v) (u.setHalf x q v) :=
  h.update (g := (State.setHalf · x q v)) (u.setHalf_f x q v) fun _ _ _ => by cases x <;> cases q <;> rfl

theorem setSp (h : AlikeOn mask t u) (w : Word) : AlikeOn mask { t with sp := w } { u with sp := w } :=
  h.update (g := fun s => { s with sp := w }) rfl fun _ _ _ => rfl

theorem setI (h : AlikeOn mask t u) (v : Byte) : AlikeOn mask { t with i := v } { u with i := v } :=
  h.update (g := fun s => { s with i := v }) rfl fun _ _ _ => rfl

theorem setR (h : AlikeOn mask t u) (v : Byte) : AlikeOn mask { t with r := v } { u with r := v } :=
  h.update (g := fun s => { s with r := v }) rfl fun _ _ _ => rfl

theorem markFinal (h : AlikeOn mask t u) : AlikeOn mask { t with status := .final } { u with status := .final } :=
  h.update (g := fun s => { s with status := .final }) rfl fun _ _ _ => rfl

theorem setHl (h : AlikeOn mask t u) (v : Word) : AlikeOn mask (t.setHl v) (u.setHl v) :=
  (h.setReg8 .h (hi v)).setReg8 .l (lo v)

theorem setPair (h : AlikeOn mask t u) (p : RegPair) (v : Word) : AlikeOn mask (t.setPair p v) (u.setPair p v) := by
  cases p with
  | bc => exact (h.setReg8 .b (hi v)).setReg8 .c (lo v)
  | de => exact (h.setReg8 .d (hi v)).setReg8 .e (lo v)
  | hl => exact h.setHl v
  | sp => exact h.setSp v

theorem setIndex (h : AlikeOn mask t u) (x : IndexReg) (v : Word) : AlikeOn mask (t.setIndex x v) (u.setIndex x v) :=
  (h.setHalf x .high (hi v)).setHalf x .low (lo v)

theorem setRho (h : AlikeOn mask t u) (x : IndexReg) (q : Rho) (v : Byte) : AlikeOn mask (t.setRho x q v) (u.setRho x q v) := by
  cases q with
  | b => exact h.setReg8 .b v
  | c => exact h.setReg8 .c v
  | d => exact h.setReg8 .d v
  | e => exact h.setReg8 .e v
  | xh => exact h.setHalf x .high v
  | xl => exact h.setHalf x .low v
  | a => exact h.setReg8 .a v

/-! ### Updates of `F` and of the draw counter -/

theorem afterDraw (h : AlikeOn mask t u) : AlikeOn mask t.afterDraw u.afterDraw := by
  obtain ⟨f, draws, p, rfl, hmask⟩ := h
  exact ⟨f, draws + 1, p, rfl, hmask⟩

theorem setF (h : AlikeOn mask t u) (v : Byte) : AlikeOn mask { t with f := v } { u with f := v } := by
  obtain ⟨f, draws, p, rfl, -⟩ := h
  exact ⟨v, draws, p, rfl, rfl⟩

/-- `F` written with the same bits of `mask`, and with any others. -/
theorem setOpenBits (h : AlikeOn mask t u) (base : Byte) {y y' : Byte} (d d' : Nat) (hy : y &&& mask = 0) (hy' : y' &&& mask = 0) :
    AlikeOn mask { t with f := base ||| y, draws := d } { u with f := base ||| y', draws := d' } := by
  obtain ⟨f, draws, p, rfl, -⟩ := h
  refine ⟨base ||| y, d, p, rfl, ?_⟩
  rw [BitVec.and_comm, BitVec.and_or_distrib_left, BitVec.and_comm _ y, hy, ← hy', BitVec.and_comm y', ← BitVec.and_or_distrib_left,
    BitVec.and_comm]

theorem setFlags (h : AlikeOn mask t u) (base src : Byte) (hm : 0x28 &&& mask = 0) :
    AlikeOn mask (t.setFlags base src) (u.setFlags base src) := by
  rw [State.setFlags_frame, State.setFlags_frame]
  exact h.setOpenBits base _ _ (t.xyBits_and_eq_zero src hm) (u.xyBits_and_eq_zero src hm)

theorem setAccFlags (h : AlikeOn mask t u) (r base src : Byte) (hm : 0x28 &&& mask = 0) :
    AlikeOn mask (t.setAccFlags r base src) (u.setAccFlags r base src) :=
  (h.setReg8 .a r).setFlags base src hm

theorem setFlagsDrawn (h : AlikeOn mask t u) (base m : Byte) (hm : m &&& mask = 0) :
    AlikeOn mask (t.setFlagsDrawn base m) (u.setFlagsDrawn base m) :=
  h.setOpenBits base _ _ (and_and_eq_zero _ hm) (and_and_eq_zero _ hm)

theorem bitReg (s : State) (b : Fin 8) (v : Byte) :
    AlikeOn 0x53 ((s.withUndoc .z80).bitReg b v) ((s.withUndoc .draw).bitReg b v) := by
  have h := (start (mask := 0x53) s).setOpenBits (bitFixed b v s.f) s.draws (s.draws + 1)
    (bitSignParity_and_eq_zero b v (m := 0x28) rfl v) (and_and_eq_zero (m := 0xAC) s.drawn rfl)
  rwa [← BitVec.or_assoc] at h

theorem bitMem (s : State) (b : Fin 8) (v : Byte) :
    AlikeOn 0x53 ((s.withUndoc .z80).bitMem b v) ((s.withUndoc .draw).bitMem b v) := by
  have h := (start (mask := 0x53) s).setOpenBits (bitFixed b v s.f) (s.draws + 1) (s.draws + 1)
    (bitSignParity_and_eq_zero b v (m := 0x28) rfl s.drawn) (and_and_eq_zero (m := 0xAC) s.drawn rfl)
  rwa [← BitVec.or_assoc] at h

theorem setStackPair (h : AlikeOn mask t u) (p : StackPair) (v : Word) :
    AlikeOn mask (t.setStackPair p v) (u.setStackPair p v) := by
  cases p with
  | bc => exact h.setPair .bc v
  | de => exact h.setPair .de v
  | hl => exact h.setPair .hl v
  | af => exact (h.setReg8 .a (hi v)).setF (lo v)

/-! ### The shared operations -/

theorem fallThrough (h : AlikeOn mask t u) (len : Nat) : EndAlikeOn mask (fallThrough t len) (fallThrough u len) := by
  obtain ⟨f, draws, p, rfl, hmask⟩ := h
  exact ⟨f, draws, p, rfl, hmask⟩

theorem jump (h : AlikeOn mask t u) (w : Word) : EndAlikeOn mask (jump t w) (jump u w) :=
  h.update (g := fun s => { s with pc := w }) rfl fun _ _ _ => rfl

theorem withRebase (h : AlikeOn mask t u) {x : Word} {k k' : Word → Outcome State} (hk : ∀ w, EndAlikeOn mask (k w) (k' w)) :
    EndAlikeOn mask (withRebase t x k) (withRebase u x k') := by
  obtain ⟨f, draws, p, rfl, -⟩ := h
  exact .ite (hk _) rfl

theorem loadByte (h : AlikeOn mask t u) {a : Word} {k k' : Byte → Outcome State} (hk : ∀ v, EndAlikeOn mask (k v) (k' v)) :
    EndAlikeOn mask (loadByte t a k) (loadByte u a k') := by
  obtain ⟨f, draws, p, rfl, -⟩ := h
  exact .ite (hk _) rfl

theorem storeByte (h : AlikeOn mask t u) {a : Word} {v : Byte} {k k' : State → Outcome State}
    (hk : ∀ q q', AlikeOn mask q q' → EndAlikeOn mask (k q) (k' q')) :
    EndAlikeOn mask (storeByte t a v k) (storeByte u a v k') := by
  obtain ⟨f, draws, p, rfl, hmask⟩ := h
  exact .ite (hk _ _ ⟨f, draws, p, rfl, hmask⟩) rfl

theorem loadWord (h : AlikeOn mask t u) {a : Word} {k k' : Word → Outcome State} (hk : ∀ v, EndAlikeOn mask (k v) (k' v)) :
    EndAlikeOn mask (loadWord t a k) (loadWord u a k') :=
  h.loadByte fun _ => h.loadByte fun _ => hk _

theorem storeWord (h : AlikeOn mask t u) {a v : Word} {k k' : State → Outcome State}
    (hk : ∀ q q', AlikeOn mask q q' → EndAlikeOn mask (k q) (k' q')) :
    EndAlikeOn mask (storeWord t a v k) (storeWord u a v k') :=
  h.storeByte fun _ _ hq => hq.storeByte hk

/-- `g` gives both runs the same byte, and states that are alike again. -/
theorem modifyByte (h : AlikeOn mask t u) {a : Word} {g : State → Byte → Byte × State} {k k' : Byte → State → Outcome State}
    (hg : ∀ v, (g u v).1 = (g t v).1 ∧ AlikeOn mask (g t v).2 (g u v).2)
    (hk : ∀ v q q', AlikeOn mask q q' → EndAlikeOn mask (k v q) (k' v q')) :
    EndAlikeOn mask (modifyByte t a g k) (modifyByte u a g k') := by
  refine h.loadByte fun v => ?_
  obtain ⟨hv, hq⟩ := hg v
  rw [hv]
  exact hq.storeByte (hk _)

theorem push16 (h : AlikeOn mask t u) {v : Word} {k k' : State → Outcome State}
    (hk : ∀ q q', AlikeOn mask q q' → EndAlikeOn mask (k q) (k' q')) : EndAlikeOn mask (push16 t v k) (push16 u v k') := by
  obtain ⟨f, draws, p, rfl, hmask⟩ := h
  refine (setSp ⟨f, draws, p, rfl, hmask⟩ _).storeByte fun q q' hq => ?_
  obtain ⟨f, draws, p, rfl, hmask⟩ := hq
  exact (setSp ⟨f, draws, p, rfl, hmask⟩ _).storeByte hk

theorem pop16 (h : AlikeOn mask t u) {k k' : Word → State → Outcome State}
    (hk : ∀ v q q', AlikeOn mask q q' → EndAlikeOn mask (k v q) (k' v q')) : EndAlikeOn mask (pop16 t k) (pop16 u k') := by
  obtain ⟨f, draws, p, rfl, hmask⟩ := h
  exact loadWord ⟨f, draws, p, rfl, hmask⟩ fun v => hk v _ _ (setSp ⟨f, draws, p, rfl, hmask⟩ _)

theorem callTo (h : AlikeOn mask t u) (len : Nat) (target : Word) :
    EndAlikeOn mask (callTo t len target) (callTo u len target) := by
  obtain ⟨f, draws, p, rfl, hmask⟩ := h
  exact withRebase ⟨f, draws, p, rfl, hmask⟩ fun _ => push16 ⟨f, draws, p, rfl, hmask⟩ fun _ _ hq => hq.jump target

theorem exchangeTop (h : AlikeOn mask t u) {v : Word} {k k' : Word → State → Outcome State}
    (hk : ∀ v q q', AlikeOn mask q q' → EndAlikeOn mask (k v q) (k' v q')) :
    EndAlikeOn mask (exchangeTop t v k) (exchangeTop u v k') := by
  obtain ⟨f, draws, p, rfl, hmask⟩ := h
  exact loadWord ⟨f, draws, p, rfl, hmask⟩ fun v => storeWord ⟨f, draws, p, rfl, hmask⟩ (hk v)

end AlikeOn

/-- One case for each shape of instruction. -/
theorem exec_alikeOn (i : Instr) (s : State) :
    EndAlikeOn (if isBitTest i then 0x53 else 0xD7) (exec i (s.withUndoc .z80)) (exec i (s.withUndoc .draw)) := by
  have start : ∀ {mask}, AlikeOn mask (s.withUndoc .z80) (s.withUndoc .draw) := .start s
  have hxy : (0x28 : Byte) &&& (if isBitTest i then 0x53 else 0xD7) = 0 := by split <;> rfl
  cases i <;> dsimp only [exec]
  case exAfAf => exact AlikeOn.fallThrough (.start { s with a := s.a', f := s.f', a' := s.a, f' := s.f }) _
  case exx =>
    exact AlikeOn.fallThrough (.start { s with
      b := s.b', c := s.c', d := s.d', e := s.e', h := s.h', l := s.l'
      b' := s.b, c' := s.c, d' := s.d, e' := s.e, h' := s.h, l' := s.l }) _
  case nop => exact start.fallThrough _
  case ldRR | ldRN | resR | setR => exact (start.setReg8 _ _).fallThrough _
  case ldRHl | ldRXd => exact start.loadByte fun _ => (start.setReg8 _ _).fallThrough _
  case ldAPtr | ldAAbs => exact start.loadByte fun v => (start.setReg8 .a v).fallThrough _
  case ldHlR | ldHlN | ldPtrA | ldAbsA | ldXdR | ldXdN => exact start.storeByte fun _ _ h => h.fallThrough _
  case ldDdNn | incSs | decSs => exact (start.setPair _ _).fallThrough _
  case ldHlAbs => exact start.loadWord fun v => (start.setHl v).fallThrough _
  case ldDdAbs => exact start.loadWord fun v => (start.setPair _ v).fallThrough _
  case ldXyAbs => exact start.loadWord fun v => (start.setIndex _ v).fallThrough _
  case ldAbsHl | ldAbsDd | ldAbsXy => exact start.storeWord fun _ _ h => h.fallThrough _
  case ldSpHl | ldSpXy => exact (start.setSp _).fallThrough _
  case ldXyNn | incXy | decXy => exact (start.setIndex _ _).fallThrough _
  case ldXhN => exact (start.setHalf _ _ _).fallThrough _
  case ldRho => exact (start.setRho _ _ _).fallThrough _
  case ldIA => exact (start.setI _).fallThrough _
  case ldRefreshA => exact (start.setR _).fallThrough _
  case ldARefresh => exact (start.afterDraw.setAccFlags _ _ _ hxy).fallThrough _
  case pushQq | pushXy => exact start.push16 fun _ _ h => h.fallThrough _
  case popQq => exact start.pop16 fun v _ _ h => (h.setStackPair _ v).fallThrough _
  case popXy => exact start.pop16 fun v _ _ h => (h.setIndex _ v).fallThrough _
  case exDeHl => exact ((((start.setReg8 .d s.h).setReg8 .e s.l).setReg8 .h s.d).setReg8 .l s.e).fallThrough _
  case exSpHl => exact start.exchangeTop fun v _ _ h => (h.setHl v).fallThrough _
  case exSpXy => exact start.exchangeTop fun v _ _ h => (h.setIndex _ v).fallThrough _
  case addR | addN | addXh | adcR | adcN | adcXh | subR | subN | subXh | sbcR | sbcN | sbcXh | andR | andN | andXh | xorR | xorN
      | xorXh | orR | orN | orXh | neg | daa | cpl | rlca | rrca | rla | rra | ldAI =>
    exact (start.setAccFlags _ _ _ hxy).fallThrough _
  case addHl | adcHl | subHl | sbcHl | andHl | xorHl | orHl | addXd | adcXd | subXd | sbcXd | andXd | xorXd | orXd =>
    exact start.loadByte fun _ => (start.setAccFlags _ _ _ hxy).fallThrough _
  case cpR | cpN | cpXh => exact (start.setFlags _ _ hxy).fallThrough _
  case cpHl | cpXd => exact start.loadByte fun _ => (start.setFlags _ _ hxy).fallThrough _
  case scf | ccf => exact (start.setFlagsDrawn _ _ hxy).fallThrough _
  case bitR => exact (AlikeOn.bitReg s _ _).fallThrough _
  case bitHl | bitXd => exact start.loadByte fun v => (AlikeOn.bitMem s _ v).fallThrough _
  case incR | decR | rlcR | rrcR | rlR | rrR | slaR | sraR | sllR | srlR =>
    exact ((start.setFlags _ _ hxy).setReg8 _ _).fallThrough _
  case incXh | decXh => exact ((start.setFlags _ _ hxy).setHalf _ _ _).fallThrough _
  case incHl | decHl | incXd | decXd | rlcHl | rrcHl | rlHl | rrHl | slaHl | sraHl | sllHl | srlHl | rlcXd | rrcXd | rlXd | rrXd
      | slaXd | sraXd | sllXd | srlXd =>
    exact start.modifyByte (fun _ => ⟨rfl, start.setFlags _ _ hxy⟩) fun _ _ _ h => h.fallThrough _
  case rlcXdR | rrcXdR | rlXdR | rrXdR | slaXdR | sraXdR | sllXdR | srlXdR =>
    exact start.modifyByte (fun _ => ⟨rfl, start.setFlags _ _ hxy⟩) fun _ _ _ h => (h.setReg8 _ _).fallThrough _
  case resHl | setHl | resXd | setXd => exact start.modifyByte (fun _ => ⟨rfl, start⟩) fun _ _ _ h => h.fallThrough _
  case addHlSs => exact ((start.setFlags _ _ hxy).setHl _).fallThrough _
  case adcHlSs | sbcHlSs => exact ((start.setHl _).setF _).fallThrough _
  case addXyPp => exact ((start.setFlags _ _ hxy).setIndex _ _).fallThrough _
  case jpNn | jpHl | jpXy => exact start.jump _
  case jpCc => exact .ite (start.jump _) (start.fallThrough _)
  case jrE => exact start.withRebase fun _ => start.jump _
  case jrCc => exact .ite (start.withRebase fun _ => start.jump _) (start.fallThrough _)
  case djnz =>
    have counted {mask : Byte} : AlikeOn mask _ _ := start.setReg8 .b (s.b - 1)
    exact .ite (start.withRebase fun w => counted.jump w) (counted.fallThrough _)
  case callNn | rst => exact start.callTo _ _
  case callCc => exact .ite (start.callTo _ _) (start.fallThrough _)
  case ret => exact start.pop16 fun v _ _ h => h.jump v
  case retCc => exact .ite (start.pop16 fun v _ _ h => h.jump v) (start.fallThrough _)
  case halt => exact start.withRebase fun w => .ite start.markFinal (start.jump w)

/-- Settles O53: the two runs of an instruction, from states that differ in the policy alone, end alike. -/
theorem policyTouchesOnlyOpenBits : Obligations.PolicyTouchesOnlyOpenBits := by
  unfold Obligations.PolicyTouchesOnlyOpenBits
  intro i s
  have h := exec_alikeOn i s
  unfold State.withUndoc at h
  generalize exec i { s with params := { s.params with undoc := .z80 } } = o at h ⊢
  generalize exec i { s with params := { s.params with undoc := .draw } } = o' at h ⊢
  cases o <;> cases o'
  case next.next t u =>
    obtain ⟨f, draws, p, rfl, hmask⟩ := h
    exact ⟨rfl, hmask⟩
  all_goals exact h

end Sys2Proof.Machine

/-! The loads (42_load.md R221 to R250): each instruction is its access and one register or memory write, after which it falls through. -/

namespace Sys2Proof.Machine

/-! ### Loads of a register -/

theorem fallThrough_of_pc_eq {s t : State} (h : t.pc = s.pc) (len : Nat) :
    fallThrough t len = .next { t with pc := s.pc + BitVec.ofNat 16 len } := by
  rw [fallThrough, State.nextAddress, h]

/-- Settles O27: no register write reaches `PC`. -/
theorem registerLoads : Obligations.RegisterLoads := by
  unfold Obligations.RegisterLoads
  intro s
  refine ⟨fun r q => ?_, fun r n => ?_, fun x t q => ?_, fun x u n => ?_, fun p nn => ?_, fun x nn => ?_, rfl, fun _ => rfl⟩
  · exact fallThrough_of_pc_eq (State.setReg8_pc s r (s.reg8 q)) 1
  · exact fallThrough_of_pc_eq (State.setReg8_pc s r n) 2
  · exact fallThrough_of_pc_eq (State.setRho_pc s x t (s.rho x q)) 2
  · exact fallThrough_of_pc_eq (State.setHalf_pc s x u n) 3
  · exact fallThrough_of_pc_eq (State.setPair_pc s p nn) 3
  · exact fallThrough_of_pc_eq (State.setIndex_pc s x nn) 4

/-- A register loaded from memory, or the stuck read of 20_memory.md R78. -/
theorem loadByte_setReg8 (s : State) (a : Word) (r : Reg8) (len : Nat) :
    loadByte s a (fun v => fallThrough (s.setReg8 r v) len) =
      if s.canRead a then .next { s.setReg8 r (s.readByte a) with pc := s.pc + BitVec.ofNat 16 len } else .fault .stuck := by
  rw [loadByte, fallThrough_of_pc_eq (State.setReg8_pc ..)]

/-- Settles O28: each load is the same access at its own address. -/
theorem byteLoads : Obligations.ByteLoads := by
  unfold Obligations.ByteLoads
  intro s
  refine ⟨fun r => ?_, fun r x d => ?_, fun q => ?_, fun nn => ?_⟩
  · exact loadByte_setReg8 s s.hl r 1
  · exact loadByte_setReg8 s (s.indexed x d) r 3
  · cases q with
    | bc => exact loadByte_setReg8 s s.bc .a 1
    | de => exact loadByte_setReg8 s s.de .a 1
  · exact loadByte_setReg8 s nn .a 3

/-! ### Stores -/

theorem storeByte_of_canWrite {s : State} {a : Word} (h : s.canWrite a = true) (v : Byte) (len : Nat) :
    ∃ t, storeByte s a v (fun s1 => fallThrough s1 len) = .next t
      ∧ StoredByte s t a v
      ∧ t = { s with pc := s.pc + BitVec.ofNat 16 len, mem := t.mem, written := t.written } :=
  ⟨_, if_pos h, storedByte_writeByte s a v, rfl⟩

theorem storeWord_of_canWriteWord {s : State} {a : Word} (h : s.canWriteWord a = true) (v : Word) (len : Nat) :
    ∃ t, storeWord s a v (fun s1 => fallThrough s1 len) = .next t
      ∧ StoredWord s t a v
      ∧ t = { s with pc := s.pc + BitVec.ofNat 16 len, mem := t.mem, written := t.written } := by
  obtain ⟨hl, hh⟩ := (s.canWriteWord_iff a).1 h
  exact ⟨_, (storeWord_next ..).2 ⟨hl, hh, rfl⟩, storedWord_store s a v, rfl⟩

/-- Settles O29: every store is one `MemWrite` and its length (`exec_byteStore`). -/
theorem byteStores : Obligations.ByteStores := by
  unfold Obligations.ByteStores
  intro s o h
  rw [exec_byteStore]
  exact storeByte_of_canWrite h (o.value s) o.length

/-! ### Words -/

theorem loadWord_of_canReadWord {s : State} {a : Word} (h : s.canReadWord a = true) (k : Word → Outcome State) :
    loadWord s a k = k (s.wordAt a) := by
  obtain ⟨hl, hh⟩ := (s.canReadWord_iff a).1 h
  rw [loadWord, loadByte, if_pos hl, loadByte, if_pos hh, State.wordAt]

theorem State.half_low_setIndex (s : State) (x : IndexReg) (v : Word) : (s.setIndex x v).half x .low = lo v := by
  cases x <;> rfl

theorem State.half_high_setIndex (s : State) (x : IndexReg) (v : Word) : (s.setIndex x v).half x .high = hi v := by
  cases x <;> rfl

/-- A write of an index register is beside one of `PC`. -/
theorem State.setIndex_with_pc (s : State) (x : IndexReg) (v w : Word) :
    { s with pc := w }.setIndex x v = { s.setIndex x v with pc := w } := by
  cases x <;> rfl

theorem exec_ldHlAbs_of_canReadWord {s : State} {nn : Word} (h : s.canReadWord nn = true) :
    ∃ t, exec (.ldHlAbs nn) s = .next t ∧ t.l = s.readByte nn ∧ t.h = s.readByte (nn + 1) ∧ t.pc = s.pc + 3
      ∧ t = { s with h := t.h, l := t.l, pc := t.pc } := by
  rw [exec_ldHlAbs, loadWord_of_canReadWord h]
  exact ⟨_, rfl, lo_join _ _, hi_join _ _, rfl, rfl⟩

theorem exec_ldXyAbs_of_canReadWord {s : State} {nn : Word} (x : IndexReg) (h : s.canReadWord nn = true) :
    ∃ t, exec (.ldXyAbs x nn) s = .next t
      ∧ t.half x .low = s.readByte nn ∧ t.half x .high = s.readByte (nn + 1) ∧ t.pc = s.pc + 4
      ∧ t = { s.setIndex x (t.index x) with pc := t.pc } := by
  rw [exec_ldXyAbs, loadWord_of_canReadWord h, fallThrough_of_pc_eq (State.setIndex_pc ..), ← State.setIndex_with_pc]
  refine ⟨_, rfl, ?_, ?_, State.setIndex_pc .., ?_⟩
  · rw [State.half_low_setIndex, State.wordAt, lo_join]
  · rw [State.half_high_setIndex, State.wordAt, hi_join]
  · rw [State.index_setIndex, if_pos rfl, State.setIndex_pc, ← State.setIndex_with_pc]

/-- Settles O30: both bytes are admitted, so each load has the word at `nn`, and each store is the two writes of `storedWord_store`. -/
theorem wordLoadsAndStores : Obligations.WordLoadsAndStores := by
  unfold Obligations.WordLoadsAndStores
  refine ⟨fun s nn h => ⟨?_, fun p => ?_, fun x => ?_⟩, fun s nn h => ⟨?_, fun p => ?_, fun x => ?_⟩⟩
  · exact exec_ldHlAbs_of_canReadWord h
  · exact exec_ldDdAbs_of_canReadWord p h
  · exact exec_ldXyAbs_of_canReadWord x h
  · exact storeWord_of_canWriteWord h s.hl 3
  · exact storeWord_of_canWriteWord h (s.pair p) 4
  · exact storeWord_of_canWriteWord h (s.index x) 4

end Sys2Proof.Machine

/-! `SET16` (42_load.md R222): its two shapes, and that both write the word to the pair. -/

namespace Sys2Proof.Machine

theorem fold_shr_8_word (w : Word) : fold (.binary .shr (numLit w.toNat) (numLit 8)) = numLit (hi w).toNat :=
  congrArg Expr.literal (Option.some.inj (shr_8_word w))

theorem fold_band_255_word (w : Word) : fold (.binary .band (numLit w.toNat) (numLit 0xFF)) = numLit (lo w).toNat :=
  congrArg Expr.literal (Option.some.inj (band_255_word w))

theorem set16_literal (high low : IrReg) (w : Word) :
    set16 high low (numLit w.toNat) = [setReg high (numLit (hi w).toNat), setReg low (numLit (lo w).toNat)] := by
  rw [← fold_shr_8_word, ← fold_band_255_word]
  rfl

theorem set16_of_not_literal {e : Expr} (h : ∀ v : Value, e ≠ .literal v) (high low : IrReg) :
    set16 high low e = [.varDecl .val e, setReg high (shrE (tmpE .val) 8), setReg low (andE (tmpE .val) (numLit 0xFF))] := by
  cases e with
  | literal v => exact absurd rfl (h v)
  | _ => rfl

/-- A list of statements has the result that every rest `k` of an instruction receives from it. -/
theorem runStmts_of_runThen {ss : List Stmt} {c d : Ctx} {b : Bool}
    (h : ∀ k : Bool → Ctx → Outcome State, runThen ss c k = k b d) : runStmts (Stmts.ofList ss) c = .ok (b, d) := by
  unfold runThen at h
  cases hr : runStmts (Stmts.ofList ss) c with
  | error f =>
    have hk := h fun _ _ => .next c.st
    rw [hr, andThen_error] at hk
    cases hk
  | ok r =>
    classical
    by_contra hne
    have hk := h fun b' d' => if (b', d') = r then .next c.st else .fault .stuck
    rw [hr, andThen_ok, if_pos rfl, if_neg fun e => hne (congrArg Except.ok e.symm)] at hk
    cases hk

/-- The runtime split: the word held in its temporary, then halved. -/
theorem runThen_setPair16_of_not_literal {p : IrPair} {e : Expr} {v : Word} {c d : Ctx} (hne : ∀ w : Value, e ≠ .literal w)
    (he : evalExpr e c = .ok (wordValue v, d)) (k : Bool → Ctx → Outcome State) :
    runThen (setPair16 p e) c k = k false { d with st := d.st.setIrPair p v, env := d.env.set .val (wordValue v) } := by
  rw [setPair16, set16_of_not_literal hne, runThen_varDecl, evalThen_of_ok he]
  simp [wordValue_inIrRange]

/-- Settles O57: the shape by the two cases of `set16`, the effect by running each shape. -/
theorem set16Folds : Obligations.Set16Folds := by
  unfold Obligations.Set16Folds
  refine ⟨set16_literal, fun high low e he => set16_of_not_literal he high low, fun p v c => ?_, fun p e v c d hne he => ?_⟩
  · refine runStmts_of_runThen fun k => ?_
    have h := runThen_setPair16_literal c.st p c.env c.jumped [] k v
    rwa [List.append_nil, runThen_nil] at h
  · exact runStmts_of_runThen (runThen_setPair16_of_not_literal hne he)

end Sys2Proof.Machine

/-! The 16-bit counts (45_arith16.md R320 to R323). -/

namespace Sys2Proof.Machine

/-- The rules' `If` on the low half (R320, R321) is the choice of the high half. -/
theorem join_add_one (h l : Byte) : join h l + 1 = join (if l + 1 = 0 then h + 1 else h) (l + 1) := by
  have hinc := join_inc (join h l)
  rw [hi_join, lo_join] at hinc
  rw [apply_ite (join · (l + 1))]
  exact hinc.symm

/-- The rules' `If` on the low half (R322, R323) is the choice of the high half. -/
theorem join_sub_one (h l : Byte) : join h l - 1 = join (if l - 1 = 0xFF then h - 1 else h) (l - 1) := by
  have hdec := join_dec (join h l)
  rw [hi_join, lo_join] at hdec
  rw [apply_ite (join · (l - 1))]
  exact hdec.symm

/-- Settles O21: no write of a pair reaches `PC`; the halves are those of `join_inc` and `join_dec`. -/
theorem incDec16 : Obligations.IncDec16 := by
  unfold Obligations.IncDec16
  refine ⟨fun p s => ⟨?_, ?_⟩, fun x s => ⟨?_, ?_⟩, fun h l => ⟨join_add_one h l, join_sub_one h l⟩⟩
  · exact fallThrough_of_pc_eq (State.setPair_pc s p (s.pair p + 1)) 1
  · exact fallThrough_of_pc_eq (State.setPair_pc s p (s.pair p - 1)) 1
  · exact fallThrough_of_pc_eq (State.setIndex_pc s x (s.index x + 1)) 2
  · exact fallThrough_of_pc_eq (State.setIndex_pc s x (s.index x - 1)) 2

end Sys2Proof.Machine

/-! The rotates and shifts of a byte of memory, and the forms that copy the result to a register (46_rotate_shift.md R340). -/

namespace Sys2Proof.Machine

/-- A write of a register is beside one of `PC`. -/
theorem State.setReg8_with_pc (s : State) (r : Reg8) (v : Byte) (w : Word) :
    { s with pc := w }.setReg8 r v = { s.setReg8 r v with pc := w } := by
  cases r <;> rfl

/-- Read, modify, write with a copy of the new byte to a register ends as without the copy, but for that register. -/
theorem modifyByte_setReg8 {s t : State} {a : Word} {g : State → Byte → Byte × State} {len : Nat} (r : Reg8)
    (h : modifyByte s a g (fun _ s1 => fallThrough s1 len) = .next t) :
    modifyByte s a g (fun v s1 => fallThrough (s1.setReg8 r v) len) = .next (t.setReg8 r (t.readByte a)) := by
  obtain ⟨hr, hw, ht⟩ := (modifyByte_next ..).1 h
  obtain rfl := (fallThrough_next ..).1 ht
  obtain ⟨hread, -, -⟩ := storedByte_writeByte (g s (s.readByte a)).2 a (g s (s.readByte a)).1
  refine (modifyByte_next ..).2 ⟨hr, hw, (fallThrough_next ..).2 ?_⟩
  rw [State.setReg8_pc, ← State.setReg8_with_pc]
  exact congrArg (State.setReg8 _ r) hread

/-- Settles O23: a memory form is one `modifyByte` with the flags of the byte written; the copy form is the same access, then the
write of the real register (30_encoding.md R111). -/
theorem rotateMemory : Obligations.RotateMemory := by
  unfold Obligations.RotateMemory
  refine ⟨fun op m s hr hw => ?_, fun op x d r s hr hw => ?_⟩
  · rw [exec_rotateMem]
    obtain ⟨t, ht, hend⟩ := modifyByte_setFlags (g := fun s v => s.rotate op v) hr hw (s.rotate_eq op _) m.cbLength
    exact ⟨t, _, ht, fun k hk => rotate_getLsbD op _ _ hk, hend⟩
  · rw [exec_rotateMem, exec_rotateCopy]
    obtain ⟨t, ht, -⟩ := modifyByte_setFlags (g := fun s v => s.rotate op v) hr hw (s.rotate_eq op _) 4
    exact ⟨t, ht, modifyByte_setReg8 r ht⟩

end Sys2Proof.Machine

/-! `RES` and `SET` (47_bit.md R367, R368): one bit of a register or of a byte of memory, and no flag. -/

namespace Sys2Proof.Machine

theorem bitMask_getLsbD (b : Fin 8) (k : Nat) : (bitMask b).getLsbD k = decide (k = b.val) := by
  have hmask : bitMask b = BitVec.twoPow 8 b.val := by
    revert b
    decide
  rw [hmask, BitVec.getLsbD_twoPow, decide_eq_true b.isLt, Bool.true_and, decide_eq_decide]
  exact eq_comm

theorem resBit_getLsbD (b : Fin 8) (v : Byte) (k : Nat) :
    (resBit b v).getLsbD k = (decide (k ≠ b.val) && v.getLsbD k) := by
  have hnot : 0xFF ^^^ bitMask b = ~~~bitMask b := BitVec.not_def.symm
  rw [resBit, hnot, BitVec.getLsbD_and, BitVec.getLsbD_not, bitMask_getLsbD, decide_not]
  cases hv : v.getLsbD k with
  | false => rw [Bool.false_and, Bool.and_false]
  | true => rw [decide_eq_true (BitVec.lt_of_getLsbD hv), Bool.true_and, Bool.true_and, Bool.and_true]

theorem setBit_getLsbD (b : Fin 8) (v : Byte) (k : Nat) :
    (setBit b v).getLsbD k = (decide (k = b.val) || v.getLsbD k) := by
  rw [setBit, BitVec.getLsbD_or, bitMask_getLsbD, Bool.or_comm]

/-- Read, modify, write of one byte without a flag (20_memory.md R76). -/
theorem modifyByte_of_access {s : State} {a : Word} (hr : s.canRead a = true) (hw : s.canWrite a = true) (g : Byte → Byte)
    (len : Nat) :
    ∃ t, modifyByte s a (fun s v => (g v, s)) (fun _ s1 => fallThrough s1 len) = .next t
      ∧ StoredByte s t a (g (s.readByte a))
      ∧ t = { s with pc := s.pc + BitVec.ofNat 16 len, mem := t.mem, written := t.written } := by
  rw [modifyByte, loadByte, if_pos hr]
  exact storeByte_of_canWrite hw (g (s.readByte a)) len

/-- Settles O26: the byte written is `resBit` or `setBit` of the byte read, and no write of a register reaches `PC`. -/
theorem resetAndSetBit : Obligations.ResetAndSetBit := by
  unfold Obligations.ResetAndSetBit
  refine ⟨fun b r s => ⟨⟨_, ?_, resBit_getLsbD b (s.reg8 r)⟩, ⟨_, ?_, setBit_getLsbD b (s.reg8 r)⟩⟩,
    fun b m s hr hw => ⟨?_, ?_⟩⟩
  · exact fallThrough_of_pc_eq (State.setReg8_pc s r (resBit b (s.reg8 r))) 2
  · exact fallThrough_of_pc_eq (State.setReg8_pc s r (setBit b (s.reg8 r))) 2
  · rw [exec_resMemInstr]
    obtain ⟨t, ht, hstored, hframe⟩ := modifyByte_of_access hr hw (resBit b) m.cbLength
    exact ⟨t, _, ht, hstored, resBit_getLsbD b (s.readByte (m.address s)), hframe⟩
  · rw [exec_setMemInstr]
    obtain ⟨t, ht, hstored, hframe⟩ := modifyByte_of_access hr hw (setBit b) m.cbLength
    exact ⟨t, _, ht, hstored, setBit_getLsbD b (s.readByte (m.address s)), hframe⟩

end Sys2Proof.Machine

/-! The stack accesses (48_control_stack.md R405, R417; 20_memory.md R78), said once: what each does where both bytes are admitted, and
that it is stuck elsewhere. -/

namespace Sys2Proof.Machine

theorem loadWord_eq (s : State) (a : Word) (k : Word → Outcome State) :
    loadWord s a k = if s.canReadWord a then k (s.wordAt a) else .fault .stuck := by
  by_cases h : s.canReadWord a = true
  · rw [if_pos h, loadWord_of_canReadWord h]
  · rw [if_neg h]
    exact loadWord_stuck s a k (Bool.eq_false_of_not_eq_true h)

/-- The state after `MemWrite(a, 2, v)`. -/
def State.writeWord (s : State) (a v : Word) : State :=
  { s with
    mem := ((s.writeByte a (lo v)).writeByte (a + 1) (hi v)).mem
    written := ((s.writeByte a (lo v)).writeByte (a + 1) (hi v)).written }

theorem storedWord_writeWord (s : State) (a v : Word) : StoredWord s (s.writeWord a v) a v := storedWord_store s a v

theorem storeWord_eq (s : State) (a v : Word) (k : State → Outcome State) :
    storeWord s a v k =
      if s.canWriteWord a then k (s.writeWord a v) else .fault .stuck := by
  by_cases h : s.canWriteWord a = true
  · obtain ⟨hl, hh⟩ := (s.canWriteWord_iff a).1 h
    rw [if_pos h, storeWord, storeByte, if_pos hl, storeByte, canWrite_writeByte, if_pos hh]
    rfl
  · rw [if_neg h]
    exact storeWord_stuck s a v k (Bool.eq_false_of_not_eq_true h)

/-- The two writes of `push16(v)`. -/
def State.storeBelow (s : State) (v : Word) : State := (s.writeByte (s.sp - 1) (hi v)).writeByte (s.sp - 1 - 1) (lo v)

/-- The state after `push16(v)`. -/
def State.pushed (s : State) (v : Word) : State :=
  { s with sp := s.sp - 2, mem := (s.storeBelow v).mem, written := (s.storeBelow v).written }

theorem storedWord_pushed (s : State) (v : Word) : StoredWord s (s.pushed v) (s.sp - 2) v := storedWord_push s s.sp v

theorem sub_one_sub_one (a : Word) : a - 1 - 1 = a - 2 := by bv_omega

theorem sub_two_add_one (a : Word) : a - 2 + 1 = a - 1 := by bv_omega

theorem push16_eq (s : State) (v : Word) (k : State → Outcome State) :
    push16 s v k = if s.canWriteWord (s.sp - 2) then k (s.pushed v) else .fault .stuck := by
  have hword : s.canWriteWord (s.sp - 2) = (s.canWrite (s.sp - 1) && s.canWrite (s.sp - 1 - 1)) := by
    rw [State.canWriteWord, sub_two_add_one, sub_one_sub_one, Bool.and_comm]
  have hpushed : s.pushed v = { s.storeBelow v with sp := s.sp - 1 - 1 } := by
    rw [sub_one_sub_one]
    simp [State.pushed, State.storeBelow]
  rw [hword, hpushed, push16, storeByte]
  cases hhigh : s.canWrite (s.sp - 1) with
  | false => exact if_neg (ne_true_of_eq_false hhigh)
  | true => exact if_pos hhigh

theorem pop16_eq (s : State) (k : Word → State → Outcome State) :
    pop16 s k = if s.canReadWord s.sp then k (s.wordAt s.sp) { s with sp := s.sp + 2 } else .fault .stuck :=
  loadWord_eq ..

theorem exchangeTop_eq (s : State) (v : Word) (k : Word → State → Outcome State) :
    exchangeTop s v k =
      if s.canReadWord s.sp && s.canWriteWord s.sp then k (s.wordAt s.sp) (s.writeWord s.sp v) else .fault .stuck := by
  rw [exchangeTop, loadWord_eq, storeWord_eq]
  cases s.canReadWord s.sp <;> rfl

/-- What was pushed is what the next pop takes, `SP` being back where it was. -/
theorem pop16_pushed {s : State} (hr : s.canReadWord (s.sp - 2) = true) (v w : Word) (k : Word → State → Outcome State) :
    pop16 { s.pushed v with pc := w } k =
      k v { s with pc := w, mem := (s.pushed v).mem, written := (s.pushed v).written } := by
  have hword : State.wordAt { s.pushed v with pc := w } (s.sp - 2) = v := (storedWord_pushed s v).wordAt
  have hsp : s.sp - 2 + 2 = s.sp := BitVec.sub_add_cancel ..
  calc pop16 { s.pushed v with pc := w } k
      = k (State.wordAt { s.pushed v with pc := w } (s.sp - 2)) { s.pushed v with pc := w, sp := s.sp - 2 + 2 } :=
        (pop16_eq ..).trans (if_pos hr)
    _ = _ := by rw [hword, hsp]; rfl

end Sys2Proof.Machine

/-! Conditions, the re-combination and the relative jumps (48_control_stack.md R386, R392 to R394, R400). -/

namespace Sys2Proof.Machine

theorem and_twoPow_eq_zero (f : Byte) {k : Nat} (hk : k < 8) : (f &&& BitVec.twoPow 8 k == 0) = !f.getLsbD k := by
  have hpow : BitVec.twoPow 8 k ≠ 0#8 := by
    intro h
    have hbit := congrArg (·.getLsbD k) h
    simp [hk] at hbit
  rw [BitVec.and_twoPow]
  cases f.getLsbD k with
  | false => rfl
  | true => exact beq_false_of_ne hpow

theorem and_twoPow_ne_zero (f : Byte) {k : Nat} (hk : k < 8) : (f &&& BitVec.twoPow 8 k != 0) = f.getLsbD k := by
  rw [bne, and_twoPow_eq_zero f hk, Bool.not_not]

/-- Settles O32: each condition masks the one bit of its flag. -/
theorem conditions : Obligations.Conditions := by
  unfold Obligations.Conditions
  intro f
  exact ⟨and_twoPow_eq_zero f (k := 6) (by decide), and_twoPow_ne_zero f (k := 6) (by decide),
    and_twoPow_eq_zero f (k := 0) (by decide), and_twoPow_ne_zero f (k := 0) (by decide),
    and_twoPow_eq_zero f (k := 2) (by decide), and_twoPow_ne_zero f (k := 2) (by decide),
    and_twoPow_eq_zero f (k := 7) (by decide), and_twoPow_ne_zero f (k := 7) (by decide),
    rfl, rfl, rfl, rfl⟩

theorem withRebase_of_lt {s : State} (h : s.page < 4) (x : Word) (k : Word → Outcome State) :
    withRebase s x k = k (rebase s.page x) := if_pos h

theorem rebase_eq_self_iff {page : Nat} (h : page < 4) (x : Word) : rebase page x = x ↔ x.toNat / 0x4000 = page := by
  rw [← BitVec.toNat_inj, rebase_toNat page x h]
  omega

/-- The re-combination lies in the page. -/
theorem rebase_div_pageSize {page : Nat} (h : page < 4) (x : Word) : (rebase page x).toNat / 0x4000 = page := by
  rw [rebase_toNat page x h]
  omega

/-- Settles O37: all but the first law are read off the quotient and remainder of `rebase_toNat`. -/
theorem rebaseLaws : Obligations.RebaseLaws := by
  unfold Obligations.RebaseLaws
  refine ⟨fun page x h => ?_, fun s x k h hx => ?_⟩
  · have hpage := rebase_div_pageSize h x
    exact ⟨rebase_toNat page x h, rebase_eq_self_iff h x, by omega, by omega, (rebase_eq_self_iff h _).2 hpage⟩
  · rw [withRebase_of_lt h, (rebase_eq_self_iff h x).2 hx]

/-- The offset counts from the address after the instruction (30_encoding.md R108). -/
theorem State.relTarget_toNat (s : State) (e : Byte) :
    ((s.relTarget e).toNat : Int) = (s.pc.toNat + 2 + s8 e) % 65536 := by
  have hnext : ((s.nextAddress 2).toNat : Int) = (s.pc.toNat + 2) % 65536 := by
    rw [State.nextAddress, BitVec.toNat_add]
    rfl
  rw [State.relTarget, addDisp_toNat, hnext, Int.emod_add_emod]

/-- Settles O34: the page admits the re-based target; `DJNZ` falls through exactly where `B` was 1. -/
theorem relativeJumps : Obligations.RelativeJumps := by
  unfold Obligations.RelativeJumps
  refine fun s e => ⟨fun hpage => ?_, fun cc hcc => ?_, fun hb => ?_, s.relTarget_toNat e⟩
  · have htaken (u : State) : withRebase s (s.relTarget e) (jump u) = .next { u with pc := rebase s.page (s.relTarget e) } :=
      withRebase_of_lt hpage ..
    refine ⟨htaken s, fun cc hcc => (if_pos hcc).trans (htaken s), fun hb => ?_⟩
    exact (if_pos (sub_ne_zero.2 hb)).trans (htaken { s with b := s.b - 1 })
  · exact if_neg (ne_true_of_eq_false hcc)
  · have hzero : s.b - 1 = 0 := by rw [hb]; rfl
    have huntaken : exec (.djnz e) s = fallThrough { s with b := s.b - 1 } 2 := if_neg (not_not.2 hzero)
    rw [huntaken, hzero]
    rfl

end Sys2Proof.Machine

/-! `PUSH` and `POP`, calls and returns (48_control_stack.md R395 to R399, R405, R410 to R413): each is one stack access and a write of
`PC`. -/

namespace Sys2Proof.Machine

theorem exec_pushQq (p : StackPair) (s : State) :
    exec (.pushQq p) s = push16 s (s.stackPair p) fun s1 => fallThrough s1 1 := rfl

theorem exec_popQq (p : StackPair) (s : State) :
    exec (.popQq p) s = pop16 s fun v s1 => fallThrough (s1.setStackPair p v) 1 := rfl

theorem exec_popXy (x : IndexReg) (s : State) :
    exec (.popXy x) s = pop16 s fun v s1 => fallThrough (s1.setIndex x v) 2 := rfl

theorem exec_exSpHl (s : State) : exec .exSpHl s = exchangeTop s s.hl fun v s1 => fallThrough (s1.setHl v) 1 := rfl

theorem exec_exSpXy (x : IndexReg) (s : State) :
    exec (.exSpXy x) s = exchangeTop s (s.index x) fun v s1 => fallThrough (s1.setIndex x v) 2 := rfl

theorem exec_callNn (nn : Word) (s : State) : exec (.callNn nn) s = callTo s 3 nn := rfl

theorem exec_callCc (cc : Cond) (nn : Word) (s : State) :
    exec (.callCc cc nn) s = if condHolds s.f cc then exec (.callNn nn) s else fallThrough s 3 := rfl

theorem exec_ret (s : State) : exec .ret s = pop16 s fun v s1 => jump s1 v := rfl

theorem exec_retCc (cc : Cond) (s : State) :
    exec (.retCc cc) s = if condHolds s.f cc then exec .ret s else fallThrough s 1 := rfl

theorem push16_of_canWriteWord {s : State} (h : s.canWriteWord (s.sp - 2) = true) (v : Word) (k : State → Outcome State) :
    push16 s v k = k (s.pushed v) :=
  (push16_eq s v k).trans (if_pos h)

theorem pop16_of_canReadWord {s : State} (h : s.canReadWord s.sp = true) (k : Word → State → Outcome State) :
    pop16 s k = k (s.wordAt s.sp) { s with sp := s.sp + 2 } :=
  (pop16_eq s k).trans (if_pos h)

theorem push16_fallThrough {s : State} (h : s.canWriteWord (s.sp - 2) = true) (v : Word) (len : Nat) :
    ∃ t, push16 s v (fun s1 => fallThrough s1 len) = .next t ∧ StoredWord s t (s.sp - 2) v
      ∧ t = { s with pc := s.pc + BitVec.ofNat 16 len, sp := s.sp - 2, mem := t.mem, written := t.written } :=
  ⟨_, push16_of_canWriteWord h v _, storedWord_pushed s v, rfl⟩

theorem callTo_of_canWriteWord {s : State} (hpage : s.page < 4) (h : s.canWriteWord (s.sp - 2) = true) (len : Nat) (target : Word) :
    callTo s len target = .next { s.pushed (rebase s.page (s.pc + BitVec.ofNat 16 len)) with pc := target } :=
  (withRebase_of_lt hpage ..).trans (push16_of_canWriteWord h ..)

theorem callTo_stored {s : State} (hpage : s.page < 4) (h : s.canWriteWord (s.sp - 2) = true) (len : Nat) (target : Word) :
    ∃ t, callTo s len target = .next t ∧ StoredWord s t (s.sp - 2) (rebase s.page (s.pc + BitVec.ofNat 16 len))
      ∧ t = { s with pc := target, sp := s.sp - 2, mem := t.mem, written := t.written } :=
  ⟨_, callTo_of_canWriteWord hpage h len target, storedWord_pushed .., rfl⟩

/-- A primitive run for its effect alone ends where the same evaluation ends as an instruction. -/
theorem exists_effect_eq_ok (r : Eval State) (t : State) : (∃ w, effect r = .ok (w, t)) ↔ andThen r .next = .next t := by
  cases r with
  | error f => simp [effect, Except.map]
  | ok u => simp [effect, Except.map]

/-- Settles O39: the primitives by `push16_eq` and `pop16_eq`, and the instructions from them. -/
theorem pushAndPop : Obligations.PushAndPop := by
  unfold Obligations.PushAndPop
  refine ⟨⟨fun s v k h => ?_, fun s k h => ?_, fun s t v node => ?_, fun s h l node => ?_⟩,
    fun s h => ⟨fun p => ?_, fun x => ?_⟩, fun s h => ⟨fun p => ?_, fun x => ?_⟩⟩
  · exact ⟨s.pushed v, push16_of_canWriteWord h v k, storedWord_pushed s v, rfl⟩
  · exact pop16_of_canReadWord h k
  · rw [callPrim, needU16_word, exists_effect_eq_ok, andThen_irPush]
  · rw [callPrim, callPrim, needU8_byte, needU8_byte, needU16_word]
  · exact push16_fallThrough h (s.stackPair p) 1
  · exact push16_fallThrough h (s.index x) 2
  · rw [exec_popQq, pop16_of_canReadWord h]
    cases p <;> rfl
  · rw [exec_popXy, pop16_of_canReadWord h]
    cases x <;> rfl

/-- Settles O35: a taken call is `callTo`, a return is `pop16`, and an untaken form only falls through. -/
theorem callsAndReturns : Obligations.CallsAndReturns := by
  unfold Obligations.CallsAndReturns
  refine ⟨⟨fun s hpage h => ⟨fun nn => ?_, fun cc nn hcc => ?_, fun n => ?_⟩, fun s cc nn hcc => ?_⟩,
    fun s h => ?_, fun s cc hcc => ?_⟩
  · exact callTo_stored hpage h 3 nn
  · rw [exec_callCc, if_pos hcc, exec_callNn]
    exact callTo_stored hpage h 3 nn
  · exact callTo_stored hpage h 1 (rstTarget n)
  · rw [exec_callCc, if_neg (ne_true_of_eq_false hcc)]
    rfl
  · have hret : exec .ret s = .next { s with pc := s.wordAt s.sp, sp := s.sp + 2 } := by
      rw [exec_ret, pop16_of_canReadWord h]
      rfl
    exact ⟨hret, fun cc hcc => by rw [exec_retCc, if_pos hcc, hret]⟩
  · rw [exec_retCc, if_neg (ne_true_of_eq_false hcc)]
    rfl

theorem add_one_add_one (a : Word) : a + 1 + 1 = a + 2 := BitVec.add_assoc a 1 1

/-- Settles O36: the second instruction pops what the first pushed (`pop16_pushed`); in its page the return address is not moved. -/
theorem stackRoundTrips : Obligations.StackRoundTrips := by
  unfold Obligations.StackRoundTrips
  refine ⟨fun s nn hpage hin hw hr => ?_, fun s p q hw hr => ?_⟩
  · have hreturn : rebase s.page (s.pc + BitVec.ofNat 16 3) = s.pc + 3 := (rebase_eq_self_iff hpage _).2 hin
    refine ⟨{ s.pushed (s.pc + 3) with pc := nn }, ?_, ?_, ?_⟩
    · rw [exec_callNn, callTo_of_canWriteWord hpage hw, hreturn]
    · rw [exec_ret, pop16_pushed hr]
      rfl
    · obtain ⟨-, -, hother, -⟩ := storedWord_pushed s (s.pc + 3)
      rwa [sub_two_add_one] at hother
  · refine ⟨{ s.pushed (s.stackPair p) with pc := s.pc + 1 }, ?_, ?_⟩
    · rw [exec_pushQq, push16_of_canWriteWord hw]
      rfl
    · rw [exec_popQq, pop16_pushed hr, ← add_one_add_one]
      cases q <;> rfl

/-- Settles O41: `push16`, `pop16` and `exchangeTop` are stuck there, and `page` is checked before. -/
theorem stackAccessStuck : Obligations.StackAccessStuck := by
  unfold Obligations.StackAccessStuck
  refine fun s => ⟨fun h => ?_, fun h => ?_, fun h => ?_⟩
  · have hpush (v : Word) (k : State → Outcome State) : push16 s v k = .fault .stuck :=
      (push16_eq s v k).trans (if_neg (ne_true_of_eq_false h))
    refine ⟨fun p => hpush .., fun x => hpush .., fun hpage => ?_⟩
    have hcall (len : Nat) (target : Word) : callTo s len target = .fault .stuck :=
      (withRebase_of_lt hpage ..).trans (hpush ..)
    exact ⟨hcall 3, fun n => hcall 1 (rstTarget n), fun cc nn hcc => (if_pos hcc).trans (hcall 3 nn)⟩
  · have hpop (k : Word → State → Outcome State) : pop16 s k = .fault .stuck :=
      (pop16_eq s k).trans (if_neg (ne_true_of_eq_false h))
    have hret : exec .ret s = .fault .stuck := by rw [exec_ret, hpop]
    refine ⟨fun p => ?_, fun x => ?_, hret, fun cc hcc => ?_⟩
    · rw [exec_popQq, hpop]
    · rw [exec_popXy, hpop]
    · rw [exec_retCc, if_pos hcc, hret]
  · have hexchange (v : Word) (k : Word → State → Outcome State) : exchangeTop s v k = .fault .stuck :=
      (exchangeTop_eq s v k).trans (if_neg (ne_true_of_eq_false h))
    refine ⟨?_, fun x => ?_⟩
    · rw [exec_exSpHl, hexchange]
    · rw [exec_exSpXy, hexchange]

end Sys2Proof.Machine

/-! The exchanges (48_control_stack.md R414 to R418). -/

namespace Sys2Proof.Machine

/-- `StoredWord` is about memory and `written` alone. -/
theorem StoredWord.of_mem_eq {s t u : State} {a v : Word} (h : StoredWord s t a v) (hmem : u.mem = t.mem)
    (hwritten : u.written = t.written) : StoredWord s u a v := by
  simp only [StoredWord, State.readByte, hmem, hwritten]
  exact h

/-- A write of an index register is beside those of `PC`, memory and `written`. -/
theorem State.setIndex_with_memory (s : State) (x : IndexReg) (v pc : Word) (mem : Memory) (written : List Nat) :
    { s with pc := pc, mem := mem, written := written }.setIndex x v =
      { s.setIndex x v with pc := pc, mem := mem, written := written } := by
  cases x <;> rfl

theorem exec_exSpHl_of_accessible {s : State} (h : (s.canReadWord s.sp && s.canWriteWord s.sp) = true) :
    exec .exSpHl s = .next { s.writeWord s.sp s.hl with h := hi (s.wordAt s.sp), l := lo (s.wordAt s.sp), pc := s.pc + 1 } := by
  rw [exec_exSpHl, exchangeTop_eq, if_pos h]
  rfl

theorem exec_exSpXy_of_accessible {s : State} (x : IndexReg) (h : (s.canReadWord s.sp && s.canWriteWord s.sp) = true) :
    exec (.exSpXy x) s = .next ({ s.writeWord s.sp (s.index x) with pc := s.pc + 2 }.setIndex x (s.wordAt s.sp)) := by
  rw [exec_exSpXy, exchangeTop_eq, if_pos h, fallThrough_of_pc_eq (State.setIndex_pc ..), ← State.setIndex_with_pc]
  rfl

/-- Settles O40: the register exchanges permute fields, so that twice is the identity but for `PC`; `EX (SP)` is `exchangeTop`. -/
theorem exchanges : Obligations.Exchanges := by
  unfold Obligations.Exchanges
  refine ⟨fun s => ?_, fun s hr hw => ?_⟩
  · rw [← add_one_add_one]
    exact ⟨⟨_, rfl, rfl, rfl, rfl, rfl, rfl, rfl⟩,
      ⟨_, rfl, rfl, rfl, rfl, rfl, rfl, rfl, rfl, rfl, rfl, rfl, rfl, rfl, rfl, rfl⟩, ⟨_, rfl, rfl, rfl, rfl, rfl⟩⟩
  · have h := Bool.and_eq_true_iff.2 ⟨hr, hw⟩
    refine ⟨⟨_, exec_exSpHl_of_accessible h, join_hi_lo (s.wordAt s.sp), ?_, rfl⟩,
      fun x => ⟨_, exec_exSpXy_of_accessible x h, ?_⟩⟩
    · exact (storedWord_writeWord s s.sp s.hl).of_mem_eq rfl rfl
    · rw [State.index_setIndex, if_pos rfl, State.setIndex_mem, State.setIndex_written]
      exact ⟨rfl, (storedWord_writeWord s s.sp (s.index x)).of_mem_eq (State.setIndex_mem ..) (State.setIndex_written ..),
        s.setIndex_with_memory ..⟩

end Sys2Proof.Machine

/-! The instructions of 49_misc.md: `NEG` (R426), `NOP` and the absolute jumps (R431, R388 to R391), and `HALT` (R434, R435) with the
final states (70_reset_and_hazards.md R486). -/

namespace Sys2Proof.Machine

/-! ### `NEG` -/

/-- Subtracted from 0, only `80H` keeps its sign bit. -/
theorem overflow_zero_sub (a : Byte) :
    ((0 : Byte).getLsbD 7 != a.getLsbD 7 && (0 - a).getLsbD 7 != (0 : Byte).getLsbD 7) = decide (a = 0x80) := by
  revert a
  decide

theorem sub8_zero_flags (a : Byte) :
    (sub8 0 a false).2 = flagByte ((0 - a).getLsbD 7) (decide (0 - a = 0)) (decide (a &&& 0x0F ≠ 0)) (decide (a = 0x80)) true
      (decide (a ≠ 0)) := by
  have hh : decide ((0 : Byte).toNat % 16 < a.toNat % 16 + false.toNat) = decide (a &&& 0x0F ≠ 0) := by
    rw [decide_eq_decide, ne_eq, ← BitVec.toNat_inj, and_0x0F_toNat]
    exact Nat.pos_iff_ne_zero
  have hc : decide ((0 : Byte).toNat < a.toNat + false.toNat) = decide (a ≠ 0) := by
    rw [decide_eq_decide, ne_eq, ← BitVec.toNat_inj]
    exact Nat.pos_iff_ne_zero
  rw [sub8_flags, sub8_false, hh, overflow_zero_sub, hc]

/-- Settles O15: `NEG` is `sub8` from 0. -/
theorem negate : Obligations.Negate := by
  unfold Obligations.Negate
  intro s
  have hexec : exec .neg s = fallThrough (s.setAccFlags (sub8 0 s.a false).1 (sub8 0 s.a false).2 (sub8 0 s.a false).1) 2 := rfl
  rw [hexec, sub8_zero_flags, sub8_false]
  obtain ⟨t, ht, ha, hflags, hxy, hpc, hframe⟩ := fallThrough_setAccFlags s _ 2
  exact ⟨t, ht, ha, ha ▸ hflags, ha ▸ hxy, hpc, hframe⟩

/-! ### `NOP` and the absolute jumps -/

/-- Settles O33: each writes `PC` alone; a conditional jump by the branch that its condition takes. -/
theorem jumps : Obligations.Jumps := by
  unfold Obligations.Jumps
  refine fun s => ⟨rfl, fun _ => rfl, fun cc nn => ?_, rfl, fun _ => rfl⟩
  have hexec : exec (.jpCc cc nn) s = if condHolds s.f cc then jump s nn else fallThrough s 3 := rfl
  rw [hexec]
  split
  · rfl
  · rfl

/-! ### `HALT` -/

/-- `HALT` re-bases its own address (R434). -/
theorem exec_halt (s : State) :
    exec .halt s =
      withRebase s s.pc fun w => if w = s.pc ∧ s.status = .running then .next { s with status := .final } else jump s w := by
  have hself : s.nextAddress 1 - 1 = s.pc := BitVec.add_sub_cancel ..
  have hexec : exec .halt s = withRebase s (s.nextAddress 1 - 1) fun w =>
    if w = s.pc ∧ s.status = .running then .next { s with status := .final } else jump s w := rfl
  rw [hexec, hself]

theorem exec_halt_of_moves {s : State} (hpage : s.page < 4) (hpc : rebase s.page s.pc ≠ s.pc) :
    exec .halt s = .next { s with pc := rebase s.page s.pc } := by
  rw [exec_halt, withRebase_of_lt hpage, if_neg fun h => hpc h.1]
  rfl

theorem exec_halt_of_stays {s : State} (hpage : s.page < 4) (hpc : rebase s.page s.pc = s.pc) (hrun : s.status = .running) :
    exec .halt s = .next { s with status := .final } := by
  rw [exec_halt, withRebase_of_lt hpage, if_pos ⟨hpc, hrun⟩]

/-- Only the mark of a final state changes `status`. -/
theorem Changes.status_eq {i : Instr} {s t : State} {n : Nat} (h : Changes i s n t) (hi : i ≠ .halt) : t.status = s.status := by
  induction h with
  | start => rfl
  | setReg8 r v _ ih => simpa using ih
  | setHalf q v _ _ ih => simpa using ih
  | markFinal hi' => exact absurd hi' hi
  | _ => assumption

theorem State.isFinal_iff (s : State) : s.isFinal = true ↔ s.AtFinal := by
  simp [State.isFinal, State.AtFinal, and_assoc]

theorem State.decodeAt_of_halt {s : State} (h : s.readByte s.pc = 0x76) : s.decodeAt = .ok .halt := by
  rw [s.decodeAt_eq, h]
  rfl

/-- A `HALT` is read from its own byte: the bytes decoded begin with its encoding. -/
theorem State.readByte_of_decodeAt_halt {s : State} (h : s.decodeAt = .ok .halt) : s.readByte s.pc = 0x76 := by
  obtain ⟨-, hprefix⟩ := (decodesTo_decode ..).readFrom (s.decodeAt_eq.symm.trans h)
  exact (List.cons_prefix_cons.1 hprefix).1.symm

/-- A final state fetches nothing (R486), so a `HALT` that the run has written still ends it. -/
theorem step_of_atFinal {s : State} (h : s.AtFinal) : step s = .next { s with status := .final } := by
  have hfinal := s.isFinal_iff.2 h
  obtain ⟨hrun, hpage, hbyte, hpc⟩ := h
  rw [step_of_running hrun, runningStep_of_decodeAt (State.decodeAt_of_halt hbyte), hfinal, Bool.not_true, Bool.and_false,
    if_neg Bool.false_ne_true, exec_halt_of_stays hpage hpc hrun]

/-- `HALT` leaves `status`, or marks a state that is final but for its fetch. -/
theorem status_of_exec_halt {s t : State} (h : exec .halt s = .next t) :
    t.status = s.status
      ∨ (s.status = .running ∧ s.page < 4 ∧ rebase s.page s.pc = s.pc ∧ t = { s with status := .final }) := by
  rw [exec_halt, withRebase_next] at h
  obtain ⟨hpage, hend⟩ := h
  split at hend
  · rename_i hstay
    obtain ⟨hpc, hrun⟩ := hstay
    exact .inr ⟨hrun, hpage, hpc, (Host.Outcome.next.inj hend).symm⟩
  · obtain rfl := (jump_next ..).1 hend
    exact .inl rfl

theorem status_of_step {s t : State} (h : step s = .next t) :
    t.status = s.status ∨ (s.AtFinal ∧ t = { s with status := .final }) := by
  obtain ⟨-, i, hd, hexec⟩ := step_next h
  obtain rfl | hi := eq_or_ne i .halt
  · refine (status_of_exec_halt hexec).imp_right fun ⟨hrun, hpage, hpc, ht⟩ => ?_
    exact ⟨⟨hrun, hpage, State.readByte_of_decodeAt_halt hd, hpc⟩, ht⟩
  · exact .inl ((exec_changes hexec).status_eq hi)

/-- Settles O42: `HALT` by whether its address is re-based to itself, and a step by whether it executes `HALT`. -/
theorem haltAndFinalStates : Obligations.HaltAndFinalStates := by
  unfold Obligations.HaltAndFinalStates
  exact ⟨⟨fun _ => exec_halt_of_moves, fun _ => exec_halt_of_stays⟩, fun _ => step_of_atFinal, fun _ _ => status_of_step⟩

/-! ### `HALT_SPEEDUP` -/

/-- `tstates` is not modelled (R496), so its write is no effect. -/
theorem runFragment_tstates_cons (s : State) (len : Nat) (ss : Stmts) :
    runFragment s len (.cons (.exprStmt (.assign .set (.identifier (.env .tstates)) (numLit 0))) ss) = runFragment s len ss := rfl

/-- Settles O60: the table holds `haltT` for `HALT`, and the statement it adds is no effect. -/
theorem haltSpeedup : Obligations.HaltSpeedup := by
  unfold Obligations.HaltSpeedup
  intro s
  have hoff := fragmentOf_eq (s := { s with params := { s.params with haltSpeedup := false } }) (i := .halt) rfl rfl
  have hon := fragmentOf_eq (s := { s with params := { s.params with haltSpeedup := true } }) (i := .halt) rfl rfl
  refine ⟨hoff, hon, fun fr gr hfr hgr => ?_⟩
  obtain rfl := Option.some.inj (Except.ok.inj (hon.symm.trans hfr))
  obtain rfl := Option.some.inj (Except.ok.inj (hoff.symm.trans hgr))
  exact runFragment_tstates_cons s 1 _

end Sys2Proof.Machine

/-! How an instruction can stop (60_exceptions.md R455 to R458): by a data access that 20_memory.md R78 does not allow, or by
`rebase` while `page` is out of range. -/

namespace Sys2Proof.Machine

theorem State.canRead_of_allAccessible {s : State} (h : s.allAccessible) (a : Word) : s.canRead a = true := by
  obtain ⟨hread, -⟩ := h
  rw [State.canRead, hread]
  rfl

theorem State.canWrite_of_allAccessible {s : State} (h : s.allAccessible) (a : Word) : s.canWrite a = true := by
  obtain ⟨-, hwrite⟩ := h
  rw [State.canWrite, hwrite]
  rfl

theorem State.canReadWord_of_allAccessible {s : State} (h : s.allAccessible) (a : Word) : s.canReadWord a = true :=
  (s.canReadWord_iff a).2 ⟨State.canRead_of_allAccessible h a, State.canRead_of_allAccessible h (a + 1)⟩

theorem State.canWriteWord_of_allAccessible {s : State} (h : s.allAccessible) (a : Word) : s.canWriteWord a = true :=
  (s.canWriteWord_iff a).2 ⟨State.canWrite_of_allAccessible h a, State.canWrite_of_allAccessible h (a + 1)⟩

/-- The outcome of an instruction at `s` that only an access outside `READABLE` or `WRITABLE` can stop. -/
inductive CompletesOrStuck (s : State) : Outcome State → Prop where
  | next (t : State) : CompletesOrStuck s (.next t)
  | stuck (h : ¬ s.allAccessible) : CompletesOrStuck s (.fault .stuck)

namespace CompletesOrStuck

variable {s : State} {o p : Outcome State} {a v : Word}

theorem next_or_stuck (h : CompletesOrStuck s o) : (∃ t, o = .next t) ∨ o = .fault .stuck := by
  cases h with
  | next t => exact .inl ⟨t, rfl⟩
  | stuck => exact .inr rfl

theorem completes (h : CompletesOrStuck s o) (hacc : s.allAccessible) : ∃ t, o = .next t := by
  cases h with
  | next t => exact ⟨t, rfl⟩
  | stuck hnot => exact absurd hacc hnot

theorem ite {c : Prop} [Decidable c] (ho : c → CompletesOrStuck s o) (hp : CompletesOrStuck s p) :
    CompletesOrStuck s (if c then o else p) := by
  split
  · exact ho ‹_›
  · exact hp

/-- A data access (20_memory.md R78): `ok` says that it is admitted. -/
theorem access {ok : Bool} (hok : s.allAccessible → ok = true) (ho : CompletesOrStuck s o) :
    CompletesOrStuck s (if ok then o else .fault .stuck) := by
  split
  · exact ho
  · exact .stuck (mt hok ‹_›)

/-! ## The shared operations -/

theorem loadByte {k : Byte → Outcome State} (hk : ∀ v, CompletesOrStuck s (k v)) : CompletesOrStuck s (loadByte s a k) :=
  access (State.canRead_of_allAccessible · a) (hk _)

theorem storeByte {v : Byte} {k : State → Outcome State} (hk : ∀ t, CompletesOrStuck s (k t)) :
    CompletesOrStuck s (storeByte s a v k) :=
  access (State.canWrite_of_allAccessible · a) (hk _)

theorem modifyByte {g : State → Byte → Byte × State} {k : Byte → State → Outcome State}
    (hg : ∀ v, (g s v).2.params = s.params) (hk : ∀ v t, CompletesOrStuck s (k v t)) :
    CompletesOrStuck s (modifyByte s a g k) := by
  refine loadByte fun v => access (fun h => ?_) (hk _ _)
  rw [State.canWrite, hg]
  exact State.canWrite_of_allAccessible h a

theorem loadWord {k : Word → Outcome State} (hk : ∀ v, CompletesOrStuck s (k v)) : CompletesOrStuck s (loadWord s a k) := by
  rw [loadWord_eq]
  exact access (State.canReadWord_of_allAccessible · a) (hk _)

theorem storeWord {k : State → Outcome State} (hk : ∀ t, CompletesOrStuck s (k t)) : CompletesOrStuck s (storeWord s a v k) := by
  rw [storeWord_eq]
  exact access (State.canWriteWord_of_allAccessible · a) (hk _)

theorem push16 {k : State → Outcome State} (hk : ∀ t, CompletesOrStuck s (k t)) : CompletesOrStuck s (push16 s v k) := by
  rw [push16_eq]
  exact access (State.canWriteWord_of_allAccessible · _) (hk _)

theorem pop16 {k : Word → State → Outcome State} (hk : ∀ v t, CompletesOrStuck s (k v t)) : CompletesOrStuck s (pop16 s k) :=
  loadWord fun _ => hk _ _

theorem exchangeTop {k : Word → State → Outcome State} (hk : ∀ v t, CompletesOrStuck s (k v t)) :
    CompletesOrStuck s (exchangeTop s v k) :=
  loadWord fun _ => storeWord (hk _)

theorem withRebase {k : Word → Outcome State} (hpage : s.page < 4) (hk : ∀ w, CompletesOrStuck s (k w)) :
    CompletesOrStuck s (withRebase s a k) := by
  rw [withRebase_of_lt hpage]
  exact hk _

theorem callTo {len : Nat} {target : Word} (hpage : s.page < 4) : CompletesOrStuck s (callTo s len target) :=
  withRebase hpage fun _ => push16 fun _ => .next _

end CompletesOrStuck

/-- `DJNZ` re-bases where `B` does not count down to 0 (48_control_stack.md R394). -/
theorem appliesRebase_djnz (s : State) (e : Byte) : appliesRebase s (.djnz e) = true ↔ s.b - 1 ≠ 0 :=
  bne_iff_ne.trans sub_ne_zero.symm

/-- One case for each shape of instruction; those not named write registers only. -/
theorem exec_completesOrStuck {i : Instr} {s : State} (hpage : appliesRebase s i = true → s.page < 4) :
    CompletesOrStuck s (exec i s) := by
  cases i <;> dsimp only [exec]
  case ldRHl | ldRXd | ldAPtr | ldAAbs | addHl | adcHl | subHl | sbcHl | andHl | xorHl | orHl | cpHl | addXd | adcXd | subXd
      | sbcXd | andXd | xorXd | orXd | cpXd | bitHl | bitXd =>
    exact .loadByte fun _ => .next _
  case ldHlR | ldHlN | ldPtrA | ldAbsA | ldXdR | ldXdN => exact .storeByte fun _ => .next _
  case incHl | decHl | incXd | decXd | rlcHl | rrcHl | rlHl | rrHl | slaHl | sraHl | sllHl | srlHl | rlcXd | rrcXd | rlXd | rrXd
      | slaXd | sraXd | sllXd | srlXd | rlcXdR | rrcXdR | rlXdR | rrXdR | slaXdR | sraXdR | sllXdR | srlXdR =>
    exact .modifyByte (fun _ => State.setFlags_params ..) fun _ _ => .next _
  case resHl | setHl | resXd | setXd => exact .modifyByte (fun _ => rfl) fun _ _ => .next _
  case ldHlAbs | ldDdAbs | ldXyAbs => exact .loadWord fun _ => .next _
  case ldAbsHl | ldAbsDd | ldAbsXy => exact .storeWord fun _ => .next _
  case pushQq | pushXy => exact .push16 fun _ => .next _
  case popQq | popXy | ret => exact .pop16 fun _ _ => .next _
  case exSpHl | exSpXy => exact .exchangeTop fun _ _ => .next _
  case jpCc => exact .ite (fun _ => .next _) (.next _)
  case jrE => exact .withRebase (hpage rfl) fun _ => .next _
  case jrCc => exact .ite (fun hcc => .withRebase (hpage hcc) fun _ => .next _) (.next _)
  case djnz => exact .ite (fun hb => .withRebase (hpage ((appliesRebase_djnz ..).2 hb)) fun _ => .next _) (.next _)
  case callNn | rst => exact .callTo (hpage rfl)
  case callCc => exact .ite (fun hcc => .callTo (hpage hcc)) (.next _)
  case retCc => exact .ite (fun _ => .pop16 fun _ _ => .next _) (.next _)
  case halt => exact .withRebase (hpage rfl) fun _ => .ite (fun _ => .next _) (.next _)
  all_goals exact .next _

/-- `rebase` comes before any access of the instruction (R458). -/
theorem exec_of_pageOutOfRange {i : Instr} {s : State} (hi : appliesRebase s i = true) (hpage : ¬ s.page < 4) :
    exec i s = .fault (.pageOutOfRange s.page) := by
  have hstop (x : Word) (k : Word → Outcome State) : withRebase s x k = .fault (.pageOutOfRange s.page) :=
    withRebase_fault s x k hpage
  have hcall (len : Nat) (target : Word) : callTo s len target = .fault (.pageOutOfRange s.page) := hstop ..
  cases i
  case jrE => exact hstop ..
  case callNn | rst => exact hcall ..
  case halt => exact (exec_halt s).trans (hstop ..)
  case jrCc => exact (if_pos hi).trans (hstop ..)
  case callCc => exact (if_pos hi).trans (hcall ..)
  case djnz => exact (if_pos ((appliesRebase_djnz ..).1 hi)).trans (hstop ..)
  all_goals cases hi

/-- Every outcome of an instruction. -/
theorem exec_outcome (i : Instr) (s : State) :
    (exec i s = .fault (.pageOutOfRange s.page) ∧ appliesRebase s i = true ∧ 4 ≤ s.page) ∨ CompletesOrStuck s (exec i s) := by
  by_cases h : appliesRebase s i = true → s.page < 4
  · exact .inr (exec_completesOrStuck h)
  · obtain ⟨hi, hpage⟩ := Classical.not_imp.1 h
    exact .inl ⟨exec_of_pageOutOfRange hi hpage, hi, Nat.le_of_not_lt hpage⟩

theorem exec_fault {i : Instr} {s : State} {r : Fault} (h : exec i s = .fault r) :
    r = .stuck ∨ (r = .pageOutOfRange s.page ∧ appliesRebase s i = true ∧ 4 ≤ s.page) := by
  obtain ⟨hstop, hi⟩ | hends := exec_outcome i s
  · cases hstop.symm.trans h
    exact .inr ⟨rfl, hi⟩
  · rw [h] at hends
    cases hends
    exact .inl rfl

/-- Settles O38: by `exec_fault` there is no other way to that fault. -/
theorem pageOutOfRange : Obligations.PageOutOfRange := by
  unfold Obligations.PageOutOfRange
  refine fun i s p => ⟨fun h => ?_, fun ⟨hpage, hp, hi⟩ => ?_⟩
  · obtain hr | ⟨hr, hi, hpage⟩ := exec_fault h
    · cases hr
    · exact ⟨hpage, Fault.pageOutOfRange.inj hr, hi⟩
  · rw [hp]
    exact exec_of_pageOutOfRange hi (Nat.not_lt.2 hpage)

/-- Settles O45: in range, only `stuck` is left as a stop, and accessible addresses exclude it. -/
theorem everyInstructionCompletes : Obligations.EveryInstructionCompletes := by
  unfold Obligations.EveryInstructionCompletes
  refine ⟨fun i s hacc hpage => (exec_completesOrStuck fun _ => hpage).completes hacc, fun i s => ?_⟩
  obtain ⟨hstop, -⟩ | hends := exec_outcome i s
  · exact .inr (.inr hstop)
  · exact hends.next_or_stuck.imp_right .inl

end Sys2Proof.Machine

/-! The order of a step's outcomes (60_exceptions.md R455, R456, R458; 20_memory.md R88). -/

namespace Sys2Proof.Machine

theorem refusedLength_bounds (b0 b1 : Byte) : 1 ≤ refusedLength b0 b1 ∧ refusedLength b0 b1 ≤ 4 := by
  unfold refusedLength
  split_ifs <;> decide

theorem State.length_refusedBytes (s : State) : s.refusedBytes.length = refusedLength (s.fetchByte 0) (s.fetchByte 1) := by
  simp [State.refusedBytes]

/-- A refused fetch has read a part of the four bytes at `PC`, the first of them first. -/
theorem State.refusedBytes_prefix (s : State) :
    s.refusedBytes <+: [s.readByte s.pc, s.readByte (s.pc + 1), s.readByte (s.pc + 2), s.readByte (s.pc + 3)] := by
  have hbytes : [s.readByte s.pc, s.readByte (s.pc + 1), s.readByte (s.pc + 2), s.readByte (s.pc + 3)] =
      (List.range 4).map s.fetchByte := by
    simp [State.fetchByte, List.range_succ]
  obtain ⟨-, hlen⟩ := refusedLength_bounds (s.fetchByte 0) (s.fetchByte 1)
  rw [hbytes, State.refusedBytes, ← Nat.min_eq_left hlen, ← List.take_range]
  exact (List.take_prefix ..).map _

theorem runningStep_of_refused {s : State} {e : DecodeReject} (h : s.decodeAt = .error e) :
    runningStep s = .refused (.notInBlock s.pc s.refusedBytes) := by
  cases e
  simp [runningStep, h]

theorem step_of_not_running {s : State} (h : s.status ≠ .running) : step s = .fault .notRunning := by
  rw [step, stepState]
  split
  · exact absurd ‹_› h
  all_goals rfl

theorem exec_ne_notRunning (i : Instr) (s : State) : exec i s ≠ .fault .notRunning := by
  intro h
  obtain hr | ⟨hr, -⟩ := exec_fault h <;> cases hr

/-- `fault notRunning` is of a run that is over (log entry 1). -/
theorem step_ne_notRunning {s : State} (hrun : s.status = .running) : step s ≠ .fault .notRunning := by
  rw [step_of_running hrun]
  cases hd : s.decodeAt with
  | error e => rw [runningStep_of_refused hd]; nofun
  | ok i =>
    rw [runningStep_of_decodeAt hd]
    split
    · nofun
    · exact exec_ne_notRunning i s

/-- A fault other than `stuck` and `notRunning` is recorded in `status`. -/
theorem State.record_fault (s : State) {r : Fault} (hstuck : r ≠ .stuck) (hover : r ≠ .notRunning) :
    s.record (.fault r) = { s with status := .faulted r } := by
  cases r
  case stuck => exact absurd rfl hstuck
  case notRunning => exact absurd rfl hover
  all_goals rfl

/-- Settles O44: the order is that of `runningStep`, and `State.record` is by the outcome. -/
theorem orderOfOutcomes : Obligations.OrderOfOutcomes := by
  unfold Obligations.OrderOfOutcomes
  refine ⟨fun s hrun => ⟨fun e hd => ?_, fun i k hd hk hwritten hfinal => ?_⟩,
    fun s r h => ?_, fun s r h hstuck hrun => ?_, fun s h => ?_, fun s hover => ?_⟩
  · refine ⟨s.refusedBytes, ?_, ?_, s.refusedBytes_prefix⟩
    · rw [step_of_running hrun, runningStep_of_refused (s.decodeAt_eq.trans hd)]
    · rw [s.length_refusedBytes]
      exact (refusedLength_bounds ..).1
  · have hfetch : s.fetchesWritten i.length = true :=
      Bool.of_not_eq_false fun h => (s.fetchesWritten_eq_false _).1 h k hk hwritten
    have hnot : s.isFinal = false := Bool.eq_false_of_not_eq_true (mt s.isFinal_iff.1 hfinal)
    rw [step_of_running hrun, runningStep_of_decodeAt (s.decodeAt_eq.trans hd), hfetch, hnot]
    rfl
  · rw [h]
    rfl
  · rw [h]
    exact s.record_fault hstuck fun hr => step_ne_notRunning hrun (hr ▸ h)
  · rw [h]
    rfl
  · rw [step_of_not_running hover]
    exact ⟨nofun, rfl⟩

end Sys2Proof.Machine

/-! The operand descriptors that a template admits are those of the rows (30_encoding.md R103, R104, R109, R110). -/

namespace Sys2Proof.Machine

theorem IrReg.exists_reg8 {reg : IrReg} (h : reg.isMain = true) : ∃ r, reg = Reg8.ir r := by
  cases reg
  case b => exact ⟨.b, rfl⟩
  case c => exact ⟨.c, rfl⟩
  case d => exact ⟨.d, rfl⟩
  case e => exact ⟨.e, rfl⟩
  case h => exact ⟨.h, rfl⟩
  case l => exact ⟨.l, rfl⟩
  case a => exact ⟨.a, rfl⟩
  all_goals cases h

theorem IrReg.exists_half {reg : IrReg} {x : IndexReg} (h : reg.halfOf = some x) : ∃ u, reg = halfIr x u := by
  cases reg
  case ixh => cases h; exact ⟨.high, rfl⟩
  case ixl => cases h; exact ⟨.low, rfl⟩
  case iyh => cases h; exact ⟨.high, rfl⟩
  case iyl => cases h; exact ⟨.low, rfl⟩
  all_goals cases h

theorem IrReg.place_cases {reg : IrReg} (h : reg.isPlace = true) : (∃ r, reg = Reg8.ir r) ∨ ∃ x u, reg = halfIr x u := by
  obtain hmain | hhalf := Bool.or_eq_true_iff.1 h
  · exact .inl (IrReg.exists_reg8 hmain)
  · obtain ⟨x, hx⟩ := Option.isSome_iff_exists.1 hhalf
    exact .inr ⟨x, IrReg.exists_half hx⟩

/-- A register that keeps its meaning beside a half is an operand of `LD ρ,ρ'` with either index register (R109). -/
theorem IrReg.exists_rho {reg : IrReg} (h : reg.besideHalf = true) (x : IndexReg) : ∃ t, reg = rhoIr x t := by
  cases reg
  case b => exact ⟨.b, rfl⟩
  case c => exact ⟨.c, rfl⟩
  case d => exact ⟨.d, rfl⟩
  case e => exact ⟨.e, rfl⟩
  case a => exact ⟨.a, rfl⟩
  all_goals cases h

/-- An index half as an operand of `LD ρ,ρ'` (R109). -/
def rhoOfHalf : IndexHalf → Rho
  | .high => .xh
  | .low => .xl

theorem isHalf_rhoOfHalf (u : IndexHalf) : (rhoOfHalf u).isHalf = true := by
  cases u <;> rfl

theorem halfIr_eq (x : IndexReg) (u : IndexHalf) : halfIr x u = rhoIr x (rhoOfHalf u) := by
  cases u <;> rfl

/-- A copy is one of main registers, or one that an index half takes part in (R110). -/
theorem copyable_cases {dst src : IrReg} (h : copyable dst src = true) :
    (∃ r q, dst = Reg8.ir r ∧ src = Reg8.ir q)
      ∨ ∃ x t q, (Instr.ldRho x t q).wellFormed = true ∧ dst = rhoIr x t ∧ src = rhoIr x q := by
  unfold copyable at h
  split at h
  · obtain ⟨hdst, hsrc⟩ := Bool.and_eq_true_iff.1 h
    obtain ⟨r, rfl⟩ := IrReg.exists_reg8 hdst
    obtain ⟨q, rfl⟩ := IrReg.exists_reg8 hsrc
    exact .inl ⟨r, q, rfl, rfl⟩
  · rename_i x hdst _
    obtain ⟨u, rfl⟩ := IrReg.exists_half hdst
    obtain ⟨q, rfl⟩ := IrReg.exists_rho h x
    exact .inr ⟨x, rhoOfHalf u, q, Bool.or_eq_true_iff.2 (.inl (isHalf_rhoOfHalf u)), halfIr_eq x u, rfl⟩
  · rename_i x _ hsrc
    obtain ⟨u, rfl⟩ := IrReg.exists_half hsrc
    obtain ⟨t, rfl⟩ := IrReg.exists_rho h x
    exact .inr ⟨x, t, rhoOfHalf u, Bool.or_eq_true_iff.2 (.inr (isHalf_rhoOfHalf u)), rfl, halfIr_eq x u⟩
  · rename_i x y hdst hsrc
    obtain rfl := eq_of_beq h
    obtain ⟨u, rfl⟩ := IrReg.exists_half hdst
    obtain ⟨w, rfl⟩ := IrReg.exists_half hsrc
    exact .inr ⟨x, rhoOfHalf u, rhoOfHalf w, Bool.or_eq_true_iff.2 (.inl (isHalf_rhoOfHalf u)), halfIr_eq x u, halfIr_eq x w⟩

theorem throughPair_cases {reg : IrReg} {p : IrPair} (h : throughPair reg p = true) :
    (p = .hl ∧ ∃ r, reg = Reg8.ir r) ∨ (reg = .a ∧ ∃ q, p = ptrIr q) := by
  cases p
  case hl => exact .inl ⟨rfl, IrReg.exists_reg8 h⟩
  case bc => exact .inr ⟨eq_of_beq h, .bc, rfl⟩
  case de => exact .inr ⟨eq_of_beq h, .de, rfl⟩
  all_goals cases h

theorem IrPair.stack_cases (p : IrPair) : (∃ q, p = stackIr q) ∨ ∃ x, p = IndexReg.irPair x :=
  match p with
  | .bc => .inl ⟨.bc, rfl⟩
  | .de => .inl ⟨.de, rfl⟩
  | .hl => .inl ⟨.hl, rfl⟩
  | .af => .inl ⟨.af, rfl⟩
  | .ix => .inr ⟨.ix, rfl⟩
  | .iy => .inr ⟨.iy, rfl⟩

theorem IrPair.word_cases {p : IrPair} (h : p.isWord = true) :
    (∃ q, Desc.pair p = pairDesc q) ∨ ∃ x, p = IndexReg.irPair x := by
  obtain ⟨q, rfl⟩ | hx := p.stack_cases
  · cases q
    case af => cases h
    case bc => exact .inl ⟨.bc, rfl⟩
    case de => exact .inl ⟨.de, rfl⟩
    case hl => exact .inl ⟨.hl, rfl⟩
  · exact .inr hx

theorem IrPair.pointer_cases {p : IrPair} (h : p.isPointer = true) : p = .hl ∨ ∃ x, p = IndexReg.irPair x := by
  cases p
  case hl => exact .inl rfl
  case ix => exact .inr ⟨.ix, rfl⟩
  case iy => exact .inr ⟨.iy, rfl⟩
  all_goals cases h

theorem exists_pairDesc_of_ssE {src : Desc} {e : Expr} (h : ssE src = some e) : ∃ p, src = pairDesc p := by
  unfold ssE at h
  split at h
  · exact ⟨.bc, rfl⟩
  · exact ⟨.de, rfl⟩
  · exact ⟨.hl, rfl⟩
  · exact ⟨.sp, rfl⟩
  · cases h

theorem exists_source_of_sourceE {src : Desc} {e : Holes → Expr} (h : sourceE src = some e) : ∃ o : Source8, src = o.desc := by
  unfold sourceE at h
  split at h
  · split at h
    · obtain ⟨r, rfl⟩ | ⟨x, u, rfl⟩ := IrReg.place_cases ‹_›
      · exact ⟨.reg r, rfl⟩
      · exact ⟨.half x u, rfl⟩
    · cases h
  · exact ⟨.imm 0, rfl⟩
  · exact ⟨.mem, rfl⟩
  · exact ⟨.idx _ 0, rfl⟩
  · cases h

end Sys2Proof.Machine

/-! What a template call can do (60_exceptions.md R450, R451; 48_control_stack.md R385), said once for every template: a call that
a row makes gives a fragment in which a write of `pc` is followed at once by a `Return`, and any other call raises. -/

namespace Sys2Proof.Machine

/-- A row of the table makes the call. -/
def MadeByRow (call : Call) : Prop := ∃ i : Instr, i.wellFormed = true ∧ callOf i = call

section
variable {call : Desc → Call} {p : IrPair} (hindex : ∀ x, MadeByRow (call (.pair (IndexReg.irPair x))))
include hindex

theorem madeByRow_word (hpair : ∀ q, MadeByRow (call (pairDesc q))) (h : p.isWord = true) : MadeByRow (call (.pair p)) := by
  obtain ⟨q, hq⟩ | ⟨x, rfl⟩ := IrPair.word_cases h
  · exact hq ▸ hpair q
  · exact hindex x

theorem madeByRow_pointer (hhl : MadeByRow (call (.pair .hl))) (h : p.isPointer = true) : MadeByRow (call (.pair p)) := by
  obtain rfl | ⟨x, rfl⟩ := IrPair.pointer_cases h
  · exact hhl
  · exact hindex x

theorem madeByRow_stack (hstack : ∀ q, MadeByRow (call (.pair (stackIr q)))) (p : IrPair) : MadeByRow (call (.pair p)) := by
  obtain ⟨q, rfl⟩ | ⟨x, rfl⟩ := p.stack_cases
  · exact hstack q
  · exact hindex x

end

/-- The operands of `ADD` (R104). -/
theorem madeByRow_add16 {p : IrPair} {src : Desc} {e : Expr} (h : addE16 p src = some e) : MadeByRow (.add16 (.pair p) src) := by
  unfold addE16 at h
  split at h
  · split at h
    · exact madeByRow_pointer (call := (.add16 · .sp))
        (fun x => ⟨.addXyPp x .sp, rfl, rfl⟩) ⟨.addHlSs .sp, rfl, rfl⟩ ‹_›
    · cases h
  · rename_i q
    split at h
    · rename_i hq
      simp only [Bool.and_eq_true, Bool.or_eq_true, beq_iff_eq] at hq
      obtain ⟨hp, (rfl | rfl) | rfl⟩ := hq
      · exact madeByRow_pointer (call := (.add16 · (.pair .bc)))
          (fun x => ⟨.addXyPp x .bc, rfl, rfl⟩) ⟨.addHlSs .bc, rfl, rfl⟩ hp
      · exact madeByRow_pointer (call := (.add16 · (.pair .de)))
          (fun x => ⟨.addXyPp x .de, rfl, rfl⟩) ⟨.addHlSs .de, rfl, rfl⟩ hp
      · exact madeByRow_pointer (call := fun d => .add16 d d)
          (fun x => ⟨.addXyPp x .xy, rfl, rfl⟩) ⟨.addHlSs .hl, rfl, rfl⟩ hp
    · cases h
  · cases h

/-- The call raises, or a row makes it and its fragment returns after each write of `pc`. -/
inductive Built (call : Call) : Synth → Prop where
  | raises : Built call (violation call)
  | row {ss : Holes → List Stmt} (hrow : MadeByRow call) (hpc : ∀ h, (Stmts.ofList (ss h)).returnsAfterPc = true) :
      Built call (fragment ss)

namespace Built

/-- A template that admits the descriptors of the call by a check. -/
theorem guard {call : Call} {admitted : Bool} {y : Synth} (h : admitted = true → Built call y) :
    Built call (if admitted then y else violation call) := by
  split
  · exact h ‹_›
  · exact .raises

/-! ## Load templates -/

theorem ld8 (undoc : UndocPolicy) (dst src : Desc) : Built (.ld8 dst src) (ld8T undoc dst src) := by
  unfold ld8T
  split
  · exact .row ⟨.ldAI, rfl, rfl⟩ fun _ => rfl
  · exact .row ⟨.ldARefresh, rfl, rfl⟩ fun _ => rfl
  · exact .row ⟨.ldIA, rfl, rfl⟩ fun _ => rfl
  · exact .row ⟨.ldRefreshA, rfl, rfl⟩ fun _ => rfl
  · refine guard fun h => ?_
    obtain ⟨r, q, rfl, rfl⟩ | ⟨x, t, q, hw, rfl, rfl⟩ := copyable_cases h
    · exact .row ⟨.ldRR r q, rfl, rfl⟩ fun _ => by cases r <;> rfl
    · exact .row ⟨.ldRho x t q, hw, rfl⟩ fun _ => by cases x <;> cases t <;> rfl
  · refine guard fun h => ?_
    obtain ⟨r, rfl⟩ | ⟨x, u, rfl⟩ := IrReg.place_cases h
    · exact .row ⟨.ldRN r 0, rfl, rfl⟩ fun _ => by cases r <;> rfl
    · exact .row ⟨.ldXhN x u 0, rfl, rfl⟩ fun _ => by cases x <;> cases u <;> rfl
  · refine guard fun h => ?_
    obtain ⟨rfl, r, rfl⟩ | ⟨rfl, q, rfl⟩ := throughPair_cases h
    · exact .row ⟨.ldRHl r, rfl, rfl⟩ fun _ => by cases r <;> rfl
    · exact .row ⟨.ldAPtr q, rfl, rfl⟩ fun _ => rfl
  · exact .row ⟨.ldAAbs 0, rfl, rfl⟩ fun _ => rfl
  · exact .raises

theorem ld8D (dst src : Desc) : Built (.ld8D dst src) (ld8DT dst src) := by
  unfold ld8DT
  split
  · refine guard fun h => ?_
    obtain ⟨r, rfl⟩ := IrReg.exists_reg8 h
    exact .row ⟨.ldRXd r _ 0, rfl, rfl⟩ fun _ => by cases r <;> rfl
  · exact .raises

theorem ldWriteMem (dst src : Desc) : Built (.ldWriteMem dst src) (ldWriteMemT dst src) := by
  unfold ldWriteMemT
  split
  · refine guard fun h => ?_
    obtain ⟨rfl, r, rfl⟩ | ⟨rfl, q, rfl⟩ := throughPair_cases h
    · exact .row ⟨.ldHlR r, rfl, rfl⟩ fun _ => rfl
    · exact .row ⟨.ldPtrA q, rfl, rfl⟩ fun _ => rfl
  · exact .row ⟨.ldHlN 0, rfl, rfl⟩ fun _ => rfl
  · exact .row ⟨.ldAbsA 0, rfl, rfl⟩ fun _ => rfl
  · refine guard fun h => ?_
    obtain ⟨r, rfl⟩ := IrReg.exists_reg8 h
    exact .row ⟨.ldXdR _ 0 r, rfl, rfl⟩ fun _ => rfl
  · exact .row ⟨.ldXdN _ 0 0, rfl, rfl⟩ fun _ => rfl
  · exact .raises

theorem ld16 (dst src : Desc) : Built (.ld16 dst src) (ld16T dst src) := by
  unfold ld16T
  split
  · rename_i p
    exact guard fun h =>
      .row (madeByRow_word (call := (.ld16 · .imm16)) (fun x => ⟨.ldXyNn x 0, rfl, rfl⟩) (fun q => ⟨.ldDdNn q 0, rfl, rfl⟩) h)
        fun _ => by cases p <;> rfl
  · exact .row ⟨.ldDdNn .sp 0, rfl, rfl⟩ fun _ => rfl
  · rename_i p
    exact guard fun h =>
      .row (madeByRow_word (call := (.ld16 · .direct)) (fun x => ⟨.ldXyAbs x 0, rfl, rfl⟩) (fun q => ⟨.ldDdAbs q 0, rfl, rfl⟩) h)
        fun _ => by cases p <;> rfl
  · exact .row ⟨.ldDdAbs .sp 0, rfl, rfl⟩ fun _ => rfl
  · exact .raises

theorem ldSp (src : Desc) : Built (.ldSp src) (ldSpT src) := by
  unfold ldSpT
  split
  · exact guard fun h =>
      .row (madeByRow_pointer (call := .ldSp) (fun x => ⟨.ldSpXy x, rfl, rfl⟩) ⟨.ldSpHl, rfl, rfl⟩ h) fun _ => rfl
  · exact .raises

theorem ldNn (src : Desc) : Built (.ldNn src) (ldNnT src) := by
  unfold ldNnT
  split
  · exact guard fun h =>
      .row (madeByRow_word (call := .ldNn) (fun x => ⟨.ldAbsXy x 0, rfl, rfl⟩) (fun q => ⟨.ldAbsDd q 0, rfl, rfl⟩) h)
        fun _ => rfl
  · exact .row ⟨.ldAbsDd .sp 0, rfl, rfl⟩ fun _ => rfl
  · exact .raises

/-! ## Arithmetic and logical templates -/

theorem alu (op : AccOp) (src : Desc) : Built (.alu op src) (aluT op src) := by
  unfold aluT
  split
  · obtain ⟨o, rfl⟩ := exists_source_of_sourceE ‹_›
    exact .row ⟨aluInstr op.alu o, wellFormed_aluInstr .., callOf_acc op o⟩ fun _ => rfl
  · exact .raises

theorem logical (undoc : UndocPolicy) (op : LogicOp) (src : Desc) : Built (.logical op src) (logicT undoc op src) := by
  unfold logicT
  cases hsrc : sourceE src with
  | some e =>
    obtain ⟨o, rfl⟩ := exists_source_of_sourceE hsrc
    exact .row ⟨aluInstr (LogicOp.alu op) o, wellFormed_aluInstr .., by cases op <;> cases o <;> rfl⟩ fun _ => rfl
  | none => exact .raises

theorem count {call : Desc → Call} (hreg : ∀ r, MadeByRow (call (.reg (Reg8.ir r))))
    (hhalf : ∀ x u, MadeByRow (call (.reg (halfIr x u)))) (hmem : ∀ m : Mem8, MadeByRow (call m.desc)) (onReg onMem : Prim)
    (dst : Desc) : Built (call dst) (countT (call dst) onReg onMem dst) := by
  unfold countT
  split
  · refine guard fun h => ?_
    obtain ⟨r, rfl⟩ | ⟨x, u, rfl⟩ := IrReg.place_cases h
    · exact .row (hreg r) fun _ => by cases r <;> rfl
    · exact .row (hhalf x u) fun _ => by cases x <;> cases u <;> rfl
  · exact .row (hmem .hl) fun _ => rfl
  · exact .row (hmem (.idx _ 0)) fun _ => rfl
  · exact .raises

theorem inc16 (dst : Desc) : Built (.inc16 dst) (inc16T dst) := by
  unfold inc16T
  split
  · rename_i p
    exact guard fun h =>
      .row (madeByRow_word (call := .inc16) (fun x => ⟨.incXy x, rfl, rfl⟩) (fun q => ⟨.incSs q, rfl, rfl⟩) h)
        fun _ => by cases p <;> rfl
  · exact .row ⟨.incSs .sp, rfl, rfl⟩ fun _ => rfl
  · exact .raises

theorem dec16 (dst : Desc) : Built (.dec16 dst) (dec16T dst) := by
  unfold dec16T
  split
  · rename_i p
    exact guard fun h =>
      .row (madeByRow_word (call := .dec16) (fun x => ⟨.decXy x, rfl, rfl⟩) (fun q => ⟨.decSs q, rfl, rfl⟩) h)
        fun _ => by cases p <;> rfl
  · exact .row ⟨.decSs .sp, rfl, rfl⟩ fun _ => rfl
  · exact .raises

theorem add16 (dst src : Desc) : Built (.add16 dst src) (add16T dst src) := by
  unfold add16T
  split
  · split
    · exact .row (madeByRow_add16 ‹_›) fun _ => rfl
    · exact .raises
  · exact .raises

theorem adc16 (src : Desc) : Built (.adc16 src) (adc16T src) := by
  unfold adc16T
  split
  · obtain ⟨p, rfl⟩ := exists_pairDesc_of_ssE ‹_›
    exact .row ⟨.adcHlSs p, rfl, rfl⟩ fun _ => rfl
  · exact .raises

theorem sbc16 (src : Desc) : Built (.sbc16 src) (sbc16T src) := by
  unfold sbc16T
  split
  · obtain ⟨p, rfl⟩ := exists_pairDesc_of_ssE ‹_›
    exact .row ⟨.sbcHlSs p, rfl, rfl⟩ fun _ => rfl
  · exact .raises

/-! ## Rotate, shift and bit templates -/

theorem cb (op : RotOp) (dst : Desc) : Built (.cb op dst) (generateCb op dst) := by
  unfold generateCb
  split
  · refine guard fun h => ?_
    obtain ⟨r, rfl⟩ := IrReg.exists_reg8 h
    exact .row ⟨rotateReg op r, by cases op <;> rfl, by cases op <;> rfl⟩ fun _ => by cases r <;> rfl
  · exact .row ⟨rotateMem op .hl, by cases op <;> rfl, by cases op <;> rfl⟩ fun _ => rfl
  · exact .raises

theorem indexCb (op : RotOp) (dst : Desc) (mirror : Option Desc) :
    Built (.indexCb op dst mirror) (generateIndexCb op dst mirror) := by
  unfold generateIndexCb
  split
  · rename_i x
    exact .row ⟨rotateMem op (.idx x 0), by cases op <;> rfl, by cases op <;> rfl⟩ fun _ => rfl
  · rename_i x reg
    refine guard fun h => ?_
    obtain ⟨r, rfl⟩ := IrReg.exists_reg8 h
    exact .row ⟨rotateCopy op x 0 r, by cases op <;> rfl, by cases op <;> rfl⟩ fun _ => by cases r <;> rfl
  · exact .raises

theorem bit (undoc : UndocPolicy) (b : Fin 8) (src : Desc) : Built (.bit b src) (bitT undoc b src) := by
  unfold bitT
  split
  · refine guard fun h => ?_
    obtain ⟨r, rfl⟩ := IrReg.exists_reg8 h
    exact .row ⟨.bitR b r, rfl, rfl⟩ fun _ => rfl
  · exact .row ⟨.bitHl b, rfl, rfl⟩ fun _ => rfl
  · exact .row ⟨.bitXd b _ 0, rfl, rfl⟩ fun _ => rfl
  · exact .raises

theorem modifyBit {call : Desc → Call} (hreg : ∀ r, MadeByRow (call (.reg (Reg8.ir r))))
    (hmem : ∀ m : Mem8, MadeByRow (call m.desc)) (g : Expr → Expr) (dst : Desc) :
    Built (call dst) (modifyBitT (call dst) g dst) := by
  unfold modifyBitT
  split
  · refine guard fun h => ?_
    obtain ⟨r, rfl⟩ := IrReg.exists_reg8 h
    exact .row (hreg r) fun _ => by cases r <;> rfl
  · exact .row (hmem .hl) fun _ => rfl
  · exact .row (hmem (.idx _ 0)) fun _ => rfl
  · exact .raises

theorem res (b : Fin 8) (dst : Desc) : Built (.res b dst) (resT b dst) :=
  modifyBit (call := .res b) (fun r => ⟨.resR b r, rfl, rfl⟩)
    (fun m => ⟨resMemInstr b m, by cases m <;> rfl, by cases m <;> rfl⟩) _ dst

theorem set (b : Fin 8) (dst : Desc) : Built (.set b dst) (setT b dst) :=
  modifyBit (call := .set b) (fun r => ⟨.setR b r, rfl, rfl⟩)
    (fun m => ⟨setMemInstr b m, by cases m <;> rfl, by cases m <;> rfl⟩) _ dst

/-! ## Control transfer, stack and exchange templates -/

theorem jpPair (dst : Desc) : Built (.jpPair dst) (jpPairT dst) := by
  unfold jpPairT
  split
  · exact guard fun h =>
      .row (madeByRow_pointer (call := .jpPair) (fun x => ⟨.jpXy x, rfl, rfl⟩) ⟨.jpHl, rfl, rfl⟩ h) fun _ => rfl
  · exact .raises

theorem push (src : Desc) : Built (.push src) (pushT src) := by
  unfold pushT
  split
  · rename_i p
    exact .row
      (madeByRow_stack (call := .push) (fun x => ⟨.pushXy x, rfl, rfl⟩) (fun q => ⟨.pushQq q, rfl, rfl⟩) p)
      fun _ => rfl
  · exact .raises

theorem pop (dst : Desc) : Built (.pop dst) (popT dst) := by
  unfold popT
  split
  · rename_i p
    exact .row
      (madeByRow_stack (call := .pop) (fun x => ⟨.popXy x, rfl, rfl⟩) (fun q => ⟨.popQq q, rfl, rfl⟩) p)
      fun _ => by cases p <;> rfl
  · exact .raises

theorem exSp (reg : Desc) : Built (.exSp reg) (exSpT reg) := by
  unfold exSpT
  split
  · rename_i p
    exact guard fun h =>
      .row (madeByRow_pointer (call := .exSp) (fun x => ⟨.exSpXy x, rfl, rfl⟩) ⟨.exSpHl, rfl, rfl⟩ h)
        fun _ => by cases p <;> rfl
  · exact .raises

theorem jp (cc : Option Cond) : Built (.jp cc) (transfer (cc.map condE) jpBody) :=
  match cc with
  | none => .row ⟨.jpNn 0, rfl, rfl⟩ fun _ => rfl
  | some cc => .row ⟨.jpCc cc 0, rfl, rfl⟩ fun _ => rfl

theorem jr (cc : Option RelCond) : Built (.jr cc) (transfer (cc.map relCondE) jrBody) :=
  match cc with
  | none => .row ⟨.jrE 0, rfl, rfl⟩ fun _ => rfl
  | some cc => .row ⟨.jrCc cc 0, rfl, rfl⟩ fun _ => rfl

theorem call (cc : Option Cond) : Built (.call cc) (transfer (cc.map condE) callBody) :=
  match cc with
  | none => .row ⟨.callNn 0, rfl, rfl⟩ fun _ => rfl
  | some cc => .row ⟨.callCc cc 0, rfl, rfl⟩ fun _ => rfl

theorem ret (cc : Option Cond) : Built (.ret cc) (transfer (cc.map condE) fun _ => retBody) :=
  match cc with
  | none => .row ⟨.ret, rfl, rfl⟩ fun _ => rfl
  | some cc => .row ⟨.retCc cc, rfl, rfl⟩ fun _ => rfl

theorem halt (speedup : Bool) : Built .halt (haltT speedup) :=
  .row ⟨.halt, rfl, rfl⟩ fun _ => by cases speedup <;> rfl

end Built

/-- Every template call. -/
theorem buildCall_built (cfg : Params) (call : Call) : Built call (buildCall cfg call) :=
  match call with
  | .ld8 dst src => .ld8 cfg.undoc dst src
  | .ldWriteMem dst src => .ldWriteMem dst src
  | .ld8D dst src => .ld8D dst src
  | .ld16 dst src => .ld16 dst src
  | .ldSp src => .ldSp src
  | .ldNn src => .ldNn src
  | .alu op src => .alu op src
  | .logical op src => .logical cfg.undoc op src
  | .inc8 dst =>
    .count (call := .inc8) (fun r => ⟨.incR r, rfl, rfl⟩) (fun x u => ⟨.incXh x u, rfl, rfl⟩)
      (fun m => ⟨incMem m, by cases m <;> rfl, by cases m <;> rfl⟩) _ _ dst
  | .dec8 dst =>
    .count (call := .dec8) (fun r => ⟨.decR r, rfl, rfl⟩) (fun x u => ⟨.decXh x u, rfl, rfl⟩)
      (fun m => ⟨decMem m, by cases m <;> rfl, by cases m <;> rfl⟩) _ _ dst
  | .inc16 dst => .inc16 dst
  | .dec16 dst => .dec16 dst
  | .add16 dst src => .add16 dst src
  | .adc16 src => .adc16 src
  | .sbc16 src => .sbc16 src
  | .accRotate op => .row ⟨AccRot.instr op, by cases op <;> rfl, by cases op <;> rfl⟩ fun _ => rfl
  | .cb op dst => .cb op dst
  | .indexCb op dst mirror => .indexCb op dst mirror
  | .bit b src => .bit cfg.undoc b src
  | .res b dst => .res b dst
  | .set b dst => .set b dst
  | .jp cc => .jp cc
  | .jpPair dst => .jpPair dst
  | .jr cc => .jr cc
  | .djnz => .row ⟨.djnz 0, rfl, rfl⟩ fun _ => rfl
  | .call cc => .call cc
  | .rst => .row ⟨.rst 0, rfl, rfl⟩ fun _ => rfl
  | .ret cc => .ret cc
  | .push src => .push src
  | .pop dst => .pop dst
  | .exDeHl => .row ⟨.exDeHl, rfl, rfl⟩ fun _ => rfl
  | .exAfAf => .row ⟨.exAfAf, rfl, rfl⟩ fun _ => rfl
  | .exx => .row ⟨.exx, rfl, rfl⟩ fun _ => rfl
  | .exSp reg => .exSp reg
  | .neg => .row ⟨.neg, rfl, rfl⟩ fun _ => rfl
  | .daa => .row ⟨.daa, rfl, rfl⟩ fun _ => rfl
  | .cpl => .row ⟨.cpl, rfl, rfl⟩ fun _ => rfl
  | .scf => .row ⟨.scf, rfl, rfl⟩ fun _ => rfl
  | .ccf => .row ⟨.ccf, rfl, rfl⟩ fun _ => rfl
  | .nop => .row ⟨.nop, rfl, rfl⟩ fun _ => rfl
  | .halt => .halt cfg.haltSpeedup

end Sys2Proof.Machine

/-! The opcode table (60_exceptions.md R450, R451, R454; 70_reset_and_hazards.md R482, R484). -/

namespace Sys2Proof.Machine

/-- A call that no row makes raises, and names itself (R450, R451). -/
theorem Built.eq_violation {call : Call} {y : Synth} (h : Built call y) (hrow : ¬ MadeByRow call) : y = violation call := by
  cases h with
  | raises => rfl
  | row hmade _ => exact absurd hmade hrow

theorem Built.returnsAfterPc {call : Call} {t : Template} (h : Built call (.ok t)) (holes : Holes) :
    (t holes).returnsAfterPc = true := by
  cases h with
  | row _ hpc => exact hpc holes

theorem tableBuilt (cfg : Params) : TableBuilt cfg := by
  obtain ⟨f, hf⟩ := Classical.axiomOfChoice (synth_ok cfg)
  exact ⟨_, buildTable_ok cfg f hf⟩

/-- The first violation aborts the table (R450). -/
theorem assemble_of_violation (pre : List (Instr × Template)) (i : Instr) (v : ContractViolation) (post : List (Instr × Synth)) :
    assemble (pre.map (fun row => (row.1, .ok row.2)) ++ (i, .error v) :: post) = .error v := by
  induction pre with
  | nil => rfl
  | cons row rest ih => rw [List.map_cons, List.cons_append, assemble, ih]

/-- The fragment of a row by the statements of its template. -/
theorem fragmentOf_of_synth {s : State} {i : Instr} {ss : Holes → List Stmt} (hw : i.wellFormed = true)
    (ht : synth s.params i = fragment ss) :
    fragmentOf s i = .ok (some (Stmts.ofList (ss (holesOf (s.nextAddress i.length) i)))) :=
  fragmentOf_eq hw ht

/-- Settles O58: the first two parts by what a call can do (`Built`), the shapes by the bodies that the transfers share. -/
theorem tableIsBuilt : Obligations.TableIsBuilt := by
  unfold Obligations.TableIsBuilt
  refine ⟨⟨tableBuilt, fun cfg i _ => synth_ok cfg i, fun cfg call h => ?_, assemble_of_violation⟩, fun i s hw => ?_,
    fun s cc rc nn e n => ?_⟩
  · exact (buildCall_built cfg call).eq_violation fun ⟨i, hw, hcall⟩ => h i hw hcall
  · obtain ⟨t, ht⟩ := synth_ok s.params i
    have hbuilt : Built (callOf i) (.ok t) := ht ▸ buildCall_built s.params (callOf i)
    exact ⟨_, fragmentOf_eq hw ht, hbuilt.returnsAfterPc _⟩
  · exact ⟨fragmentOf_of_synth (ss := jpBody) rfl rfl,
      fragmentOf_of_synth (ss := fun h => [ifS (condE cc) (jpBody h)]) rfl rfl,
      fragmentOf_of_synth (ss := jrBody) rfl rfl,
      fragmentOf_of_synth (ss := fun h => [ifS (relCondE rc) (jrBody h)]) rfl rfl,
      fragmentOf_of_synth (ss := fun h => [setReg .b (andE (subE (regE .b) (numLit 1)) (numLit 0xFF)),
        ifS (.binary .ne (regE .b) (numLit 0)) (jrBody h)]) rfl rfl,
      fragmentOf_of_synth (ss := callBody) rfl rfl,
      fragmentOf_of_synth (ss := fun h => [ifS (condE cc) (callBody h)]) rfl rfl,
      fragmentOf_of_synth (ss := callBody) rfl rfl,
      fragmentOf_of_synth (ss := fun _ => retBody) rfl rfl,
      fragmentOf_of_synth (ss := fun _ => [ifS (condE cc) retBody]) rfl rfl⟩

end Sys2Proof.Machine
